-- ==== Sys2Proof/Word.lean ====
section
/-!
DEFINITION. The machine's words: card and ring bytes, 32-bit host words. Every pointer of the block is at most
32 bits wide (N ≤ 32, 00_scope.md R10) and is held in a `Word` whose bits above its own width are 0.
-/

namespace Sys2Proof

/-- One byte: the unit of the card port (30_encoding.md R89) and of the ring memory (20_memory.md R67). -/
abbrev Byte := BitVec 8

/-- One host register (20_memory.md R74); also the carrier of the N-bit and TB-bit pointers. -/
abbrev Word := BitVec 32

/-- The filler and idle byte 0xFF (30_encoding.md R103). -/
abbrev idleByte : Byte := 0xFF#8

end Sys2Proof
end

