-- ==== Sys2Proof/Syntax.lean ====
section
/-!
DEFINITION. The instruction syntax: one constructor per row of spec/opcode_table.json. A row is a unit that crosses
one port of the block: a host command word (30_encoding.md R105), the first byte of a card command frame
(30_encoding.md R90, R93), a token (R100), a data response (R101), the busy byte (R102), the idle byte (R103) or a
producer event (R110).
-/

namespace Sys2Proof

/-- One row of the opcode table. Bits the row's rule ignores are not operands (CMD[31:4] of a command word,
p_sample of a SYNC event). The data responses carry the whole byte: its bits 7:5 are ignored by the test on
`tok[4:0]` but are recorded in `LAST_TOK` (42_card_transport.md R172). -/
inductive Instr where
  -- HOSTOP
  | nop
  | init
  | readBlock
  | writeBlock
  | beginSession
  | writeSegment
  | endSession
  | preErase
  | reservedOp (op : BitVec 4)
  -- CARDCMD
  | cmd0
  | cmd8
  | cmd17
  | cmd24
  | cmd25
  | cmd55
  | cmd58
  | acmd41
  | acmd23
  -- TOKEN
  | startBlock
  | startMulti
  | stopTran
  -- DRESP
  | drespAccepted (tok : Byte)
  | drespCrcError (tok : Byte)
  | drespWriteError (tok : Byte)
  -- BUSY, IDLE
  | busy
  | idle
  -- PEVENT
  | sample (s : BitVec 16)
  | sync
  deriving DecidableEq, Repr

end Sys2Proof
end

