-- ==== Sys2Proof/WellFormed.lean ====
section
/-!
DEFINITION. Which instruction terms an encoding exists for: a reserved command word has OP 0x8 to 0xF
(30_encoding.md R106), and a data response has the low five bits of its row (30_encoding.md R101).
-/

namespace Sys2Proof

/-- The well-formed instructions. Every other row has operands that fill their encoding, or none. -/
def Instr.wf : Instr → Bool
  | .nop => true
  | .init => true
  | .readBlock => true
  | .writeBlock => true
  | .beginSession => true
  | .writeSegment => true
  | .endSession => true
  | .preErase => true
  | .reservedOp op => decide (8#4 ≤ op)
  | .cmd0 => true
  | .cmd8 => true
  | .cmd17 => true
  | .cmd24 => true
  | .cmd25 => true
  | .cmd55 => true
  | .cmd58 => true
  | .acmd41 => true
  | .acmd23 => true
  | .startBlock => true
  | .startMulti => true
  | .stopTran => true
  | .drespAccepted tok => decide (tok &&& 0x1F#8 = 0x05#8)
  | .drespCrcError tok => decide (tok &&& 0x1F#8 = 0x0B#8)
  | .drespWriteError tok => decide (tok &&& 0x1F#8 = 0x0D#8)
  | .busy => true
  | .idle => true
  | .sample _ => true
  | .sync => true

end Sys2Proof
end

