-- ==== Sys2Proof/Decode.lean ====
section
/-!
DEFINITION. The decoder, total on every word of every format and rejecting by name, and the encoder. The block's
encodings are told apart by the port and the phase a word appears in, not by the word alone (30_encoding.md R104):
byte 0x05 is WRITE_SEGMENT in CMD, "accepted" in a data-response poll and an R1 error byte after a command.
So the decoder takes the format, the opcode table's column of that name.
-/

namespace Sys2Proof

/-- The formats of spec/opcode_table.json. -/
inductive Format where
  /-- a 32-bit word written to CMD; bits 31:4 are ignored (30_encoding.md R105) -/
  | hostop
  /-- the first byte of a command frame the engine sends (30_encoding.md R90) -/
  | cardcmd
  /-- a data token (30_encoding.md R100) -/
  | token
  /-- a data-response token (30_encoding.md R101) -/
  | dresp
  /-- a byte of a card-busy poll (30_encoding.md R102) -/
  | busy
  /-- any other byte the engine clocks in or out as filler (30_encoding.md R103) -/
  | idle
  /-- `{p_sync, p_sample}` of a clk_p cycle with p_valid = 1 (30_encoding.md R110) -/
  | pevent
  deriving DecidableEq, Repr, Inhabited

/-- Why a word of a format is no instruction. -/
inductive DecodeError where
  /-- a byte format was given bits above bit 7 -/
  | widerThanAByte
  /-- bits 7:6 are not 01: no command frame starts so (30_encoding.md R91) -/
  | notACommandByte
  /-- a command index the engine never sends (30_encoding.md R94) -/
  | commandNeverSent
  /-- not 0xFE, 0xFC or 0xFD -/
  | notADataToken
  /-- `tok[4:0]` is not 0x05, 0x0B or 0x0D -/
  | undefinedDataResponse
  /-- not the busy byte 0x00 -/
  | notBusy
  /-- not the idle byte 0xFF -/
  | notIdle
  /-- a producer word has 17 bits -/
  | widerThanAProducerWord
  deriving DecidableEq, Repr

/-- What the decoder answers. -/
inductive Decoded where
  | instr (i : Instr)
  | rejected (why : DecodeError)
  deriving DecidableEq, Repr

/-- `tok[4:0]`, the part of a data-response token that is tested (30_encoding.md R101). -/
def drespField (tok : Byte) : Byte := tok &&& 0x1F#8

/-- `OP = w[3:0]` (30_encoding.md R105). -/
def decodeHostOp (w : Word) : Instr :=
  match w.extractLsb' 0 4 with
  | 0x0#4 => .nop
  | 0x1#4 => .init
  | 0x2#4 => .readBlock
  | 0x3#4 => .writeBlock
  | 0x4#4 => .beginSession
  | 0x5#4 => .writeSegment
  | 0x6#4 => .endSession
  | 0x7#4 => .preErase
  | op => .reservedOp op

/-- Byte 0 of a frame: `01` and the command index (30_encoding.md R90, R93). -/
def decodeCardCmd (b : Byte) : Decoded :=
  if b &&& 0xC0#8 = 0x40#8 then
    match b &&& 0x3F#8 with
    | 0#8 => .instr .cmd0
    | 8#8 => .instr .cmd8
    | 17#8 => .instr .cmd17
    | 24#8 => .instr .cmd24
    | 25#8 => .instr .cmd25
    | 55#8 => .instr .cmd55
    | 58#8 => .instr .cmd58
    | 41#8 => .instr .acmd41
    | 23#8 => .instr .acmd23
    | _ => .rejected .commandNeverSent
  else .rejected .notACommandByte

/-- The data tokens (30_encoding.md R100). -/
def decodeToken (b : Byte) : Decoded :=
  match b with
  | 0xFE#8 => .instr .startBlock
  | 0xFC#8 => .instr .startMulti
  | 0xFD#8 => .instr .stopTran
  | _ => .rejected .notADataToken

/-- The data responses (30_encoding.md R101); bits 7:5 of the byte are kept. -/
def decodeDresp (b : Byte) : Decoded :=
  match drespField b with
  | 0x05#8 => .instr (.drespAccepted b)
  | 0x0B#8 => .instr (.drespCrcError b)
  | 0x0D#8 => .instr (.drespWriteError b)
  | _ => .rejected .undefinedDataResponse

/-- The busy byte (30_encoding.md R102). -/
def decodeBusy (b : Byte) : Decoded :=
  if b = 0x00#8 then .instr .busy else .rejected .notBusy

/-- The idle byte (30_encoding.md R103). -/
def decodeIdle (b : Byte) : Decoded :=
  if b = 0xFF#8 then .instr .idle else .rejected .notIdle

/-- A producer word: p_sync in bit 16, p_sample below it (30_encoding.md R110). -/
def decodeProducer (w : BitVec 17) : Instr :=
  if w.getLsbD 16 then .sync else .sample (w.extractLsb' 0 16)

/-- A byte format applied to a word whose upper bits are 0. -/
def decodeByteWith (f : Byte → Decoded) (w : Word) : Decoded :=
  if w &&& 0xFFFFFF00#32 = 0#32 then f (w.extractLsb' 0 8) else .rejected .widerThanAByte

/-- The decoder. -/
def decode (f : Format) (w : Word) : Decoded :=
  match f with
  | .hostop => .instr (decodeHostOp w)
  | .cardcmd => decodeByteWith decodeCardCmd w
  | .token => decodeByteWith decodeToken w
  | .dresp => decodeByteWith decodeDresp w
  | .busy => decodeByteWith decodeBusy w
  | .idle => decodeByteWith decodeIdle w
  | .pevent =>
    if w &&& 0xFFFE0000#32 = 0#32 then .instr (decodeProducer (w.extractLsb' 0 17))
    else .rejected .widerThanAProducerWord

/-- The format of an instruction's row. -/
def Instr.format : Instr → Format
  | .nop => .hostop
  | .init => .hostop
  | .readBlock => .hostop
  | .writeBlock => .hostop
  | .beginSession => .hostop
  | .writeSegment => .hostop
  | .endSession => .hostop
  | .preErase => .hostop
  | .reservedOp _ => .hostop
  | .cmd0 => .cardcmd
  | .cmd8 => .cardcmd
  | .cmd17 => .cardcmd
  | .cmd24 => .cardcmd
  | .cmd25 => .cardcmd
  | .cmd55 => .cardcmd
  | .cmd58 => .cardcmd
  | .acmd41 => .cardcmd
  | .acmd23 => .cardcmd
  | .startBlock => .token
  | .startMulti => .token
  | .stopTran => .token
  | .drespAccepted _ => .dresp
  | .drespCrcError _ => .dresp
  | .drespWriteError _ => .dresp
  | .busy => .busy
  | .idle => .idle
  | .sample _ => .pevent
  | .sync => .pevent

/-- The word of a well-formed instruction in its format; ignored bits are 0 (30_encoding.md R105: "should be
written 0"; p_sample of a SYNC event, 30_encoding.md R110). -/
def encode : Instr → Word
  | .nop => 0x0#32
  | .init => 0x1#32
  | .readBlock => 0x2#32
  | .writeBlock => 0x3#32
  | .beginSession => 0x4#32
  | .writeSegment => 0x5#32
  | .endSession => 0x6#32
  | .preErase => 0x7#32
  | .reservedOp op => op.setWidth 32
  | .cmd0 => 0x40#32
  | .cmd8 => 0x48#32
  | .cmd17 => 0x51#32
  | .cmd24 => 0x58#32
  | .cmd25 => 0x59#32
  | .cmd55 => 0x77#32
  | .cmd58 => 0x7A#32
  | .acmd41 => 0x69#32
  | .acmd23 => 0x57#32
  | .startBlock => 0xFE#32
  | .startMulti => 0xFC#32
  | .stopTran => 0xFD#32
  | .drespAccepted tok => tok.setWidth 32
  | .drespCrcError tok => tok.setWidth 32
  | .drespWriteError tok => tok.setWidth 32
  | .busy => 0x00#32
  | .idle => 0xFF#32
  | .sample s => s.setWidth 32
  | .sync => 0x10000#32

/-- The instruction a decoder's answer gives, if any. -/
def Decoded.toOption : Decoded → Option Instr
  | .instr i => some i
  | .rejected _ => none

/-- The format in which the opcode table's row of a word is read when only the word is known (log entry 17). A word
of more than one byte is a producer word. A byte that starts a frame the engine sends, or is a data token or the idle
byte, is that card-port unit. 0x0B and 0x0D are data responses. Every other byte is read as a host command word. Two
pairs of rows share one word and cannot be told apart so: NOP and BUSY (0x00), WRITE_SEGMENT and
DRESP_ACCEPTED (0x05); the host command word is taken. -/
def tableFormat (nbits w : Nat) : Format :=
  if 8 < nbits ∨ 256 ≤ w then .pevent
  else if ((decode .cardcmd (BitVec.ofNat 32 w)).toOption).isSome then .cardcmd
  else if ((decode .token (BitVec.ofNat 32 w)).toOption).isSome then .token
  else if w = 0xFF then .idle
  else if w = 0x0B ∨ w = 0x0D then .dresp
  else .hostop

/-- The instruction of a word numbered as spec/opcode_table.json numbers it. Every row's unit fits one word of at most
17 bits, so no bits above `nbits` have to be supplied. -/
def decodeTableWord (nbits w : Nat) : Option Instr :=
  if w < 2 ^ 32 then (decode (tableFormat nbits w) (BitVec.ofNat 32 w)).toOption else none

end Sys2Proof
end

