-- ==== Sys2Proof/Config.lean ====
section
/-!
DEFINITION. What is fixed for a run (the build parameters of 00_scope.md R10), the alphabet of events the agents
take (00_scope.md R16), and the free values: what the spec leaves to an oracle (60_exceptions.md R238).
A free value is an `opaque` constant with no body: nothing can be proved about which value it is.
-/

namespace Sys2Proof

/-- The build parameters of 00_scope.md R10. `BLK` and `SAMPLE_BYTES` have one legal value each and are constants. -/
structure Params where
  /-- `N` (MEM_AW): ring address width in bits. -/
  n : Nat
  /-- `S` (SYNC_STAGES): flops per synchronizer. -/
  s : Nat
  /-- `SAMPLE_LSB_FIRST`. -/
  lsbFirst : Bool
  /-- `CRC_LITERAL`. -/
  crcLiteral : Bool
  deriving DecidableEq, Repr, Inhabited

/-- The ranges of 00_scope.md R10: a model refuses parameters outside them (60_exceptions.md R238). -/
def Params.legal (p : Params) : Bool :=
  decide (10 ≤ p.n) && decide (p.n ≤ 32) && decide (2 ≤ p.s) && decide (p.s ≤ 15)

/-- `CAP = 2^N`, the ring capacity in bytes. -/
def Params.cap (p : Params) : Nat := 2 ^ p.n

/-- `TB = N - 9`, the width of the tail block index. -/
def Params.tb (p : Params) : Nat := p.n - 9

/-- The full-memory deployment with every default of 00_scope.md R10. -/
def Params.default : Params := { n := 18, s := 2, lsbFirst := true, crcLiteral := false }

/-- The six clock-domain crossings of 40_ring_buffer.md R136. -/
inductive Crossing where
  | head | tail | pen | fat | ovf | plost
  deriving DecidableEq, Repr, Inhabited

/-- What the first flop of a synchronizer captures (40_ring_buffer.md R136). -/
inductive Capture where
  /-- choice (i): the current value of the source -/
  | current
  /-- choice (ii): the value before the source's latest change; where no change came since the last SYNC step the
  source has been stable and the flop captures it -/
  | previous
  /-- the flop resolved to these bits; bits that are neither (i) nor (ii) are a torn capture
  (93_implementation_defined.md U18) -/
  | bits (v : Word)
  deriving DecidableEq, Repr, Inhabited

/-- One event: which agent moves next, with what the outside world chooses for it. -/
inductive Event where
  /-- a host read of the register at `addr` (20_memory.md R74) -/
  | hostRead (addr : BitVec 12)
  /-- a host write of `data` to the register at `addr` (20_memory.md R74) -/
  | hostWrite (addr : BitVec 12) (data : Word)
  /-- the host agent runs the next line of its program (30_encoding.md R115) -/
  | hostLine
  /-- a clk_p cycle with p_valid = 1: `{p_sync, p_sample}` (30_encoding.md R110) -/
  | producerEvent (w : BitVec 17)
  /-- a clk_p cycle with p_valid = 0 and this level of p_sync (45_sample_marker.md R211) -/
  | producerCycle (pSync : Bool)
  /-- a P_WRITE step (40_ring_buffer.md R122) -/
  | producerWrite
  /-- the engine's next event: an XFER, a CS, a MemRead or a register write (10_state.md R22) -/
  | engine
  /-- one step of one synchronizer (40_ring_buffer.md R136) -/
  | sync (x : Crossing) (c : Capture)
  /-- one edge of the indicator pattern (60_exceptions.md R228) -/
  | blink
  /-- rst_n is asserted (70_reset_and_hazards.md R239) -/
  | resetAssert
  /-- clk_p leaves reset -/
  | resetReleaseP
  /-- clk_c leaves reset -/
  | resetReleaseC
  deriving DecidableEq, Repr, Inhabited

/-- The `k`-th event the outside world chooses once the agenda is empty: every interleaving the agents admit
(00_scope.md R16). Free. -/
opaque Config.nextEvent : Nat → Event

/-- The `k`-th byte the card oracle answers once the MISO script is empty (60_exceptions.md R236). Free. -/
opaque Config.cardByte : Nat → Byte

/-- What the ring byte at an offset reads as when nothing was written there (20_memory.md R70,
93_implementation_defined.md U2: drawn once per offset). Free. -/
opaque Config.ringByte : Nat → Byte

end Sys2Proof
end

