-- ==== Sys2Proof/Machine/State.lean ====
section
/-!
DEFINITION. The state of the block (10_state.md), its reset value (70_reset_and_hazards.md R240), and the reasons a
step can stop. Every field is plain data. The comments give the rule that names a field.
-/

namespace Sys2Proof.Machine

/-- Why the machine stops with a fault. -/
inductive Fault where
  /-- Raised by a synchronizer step whose captured bits are neither the current nor the previous value of the
  source: a torn read, which 40_ring_buffer.md R136 excludes and 93_implementation_defined.md U18 has a model report
  as a fault of the implementation. Safe: the machine stops where broken hardware would go on. -/
  | tornCapture (x : Crossing)
  deriving DecidableEq, Repr

/-- Why the machine refuses a step. -/
inductive Refusal where
  /-- Raised by a dispatch arm of an instruction with no meaning yet; none is left. Safe. -/
  | notModelled (mnemonic : String)
  /-- Raised by every step of a build whose parameters are outside 00_scope.md R10 (60_exceptions.md R238).
  Safe: no such build exists. -/
  | parameterOutOfRange
  /-- Raised by a fetch whose word is no instruction of its format; the engine and the ports form no such word.
  Safe. -/
  | undecodableWord
  deriving DecidableEq, Repr

/-- `SESSION` (10_state.md R37). -/
inductive Session where
  | notInit | initializing | ready | sessionOpen
  deriving DecidableEq, Repr

/-- `FATAL_C` (10_state.md R36): the value 1 is the producer's and is never stored here. -/
inductive FatalC where
  | none | cardNotInitialized | generic
  deriving DecidableEq, Repr

/-- The status codes of 60_exceptions.md R217; no other value is ever in `STATUS.CODE`. -/
inductive Code where
  | ok
  | eInitCmd0 | eInitCmd8 | eInitCmd58Pre | eInitCmd55 | eInitAcmd41 | eInitCmd58Post
  | eRdCmd | eRdToken
  | eWrCmd | eWrDrespTimeout | eWrCrc | eWrWrite | eWrDrespOther | eWrBusy
  | eSesCmd | eSesDresp | eSesBusy | eSesEndBusy
  | wPreCmd55 | wPreAcmd23
  | eNotInit | eSessionOpen | eNoSession | eNoBlock | eBadOp | eHalted
  deriving DecidableEq, Repr

/-- A synchronizer chain `X_S[1..S]`, stage 1 first, with the model's own memory of the value the source held just
before its latest change, until the next SYNC step (40_ring_buffer.md R136 (ii)). -/
structure Chain (α : Type) where
  stages : List α
  old : Option α
  deriving DecidableEq, Repr

/-- `CTRL` (10_state.md R41). -/
structure Ctrl where
  prodEn : Bool
  ieDone : Bool
  ieReady : Bool
  ieFatal : Bool
  deriving DecidableEq, Repr

/-- The `CFG_*` registers (10_state.md R54 to R64). -/
structure Cfg where
  nIdle : BitVec 8
  nNcr : BitVec 8
  nCmd0 : BitVec 16
  nCmd8 : BitVec 16
  nCmd58 : BitVec 16
  nCmd55 : BitVec 16
  nAcmdR1 : BitVec 16
  nAcmd41 : BitVec 16
  nRdtok : BitVec 32
  nDresp : BitVec 16
  nBusy : BitVec 32
  nPre : BitVec 16
  maxInit : BitVec 3
  divSlow : BitVec 8
  divFast : BitVec 8
  stopSkip : Bool
  deriving DecidableEq, Repr

/-- The exchanges that are one pass of a retry loop (43_card_init.md, 44_card_block_ops.md R204), with the enclosing
loops' counters. `att` is INIT's `k`; `left` and `outer` are the passes that may follow this one. -/
inductive Pass where
  | cmd0 (att left : Nat)
  | cmd8 (att left : Nat)
  | cmd58Pre (att left : Nat)
  | cmd55Init (att outer left : Nat)
  | acmd41 (att outer : Nat)
  | cmd58Post (att left : Nat)
  | cmd55Erase (outer left : Nat)
  | acmd23 (outer : Nat)
  deriving DecidableEq, Repr

/-- Which exchange (42_card_transport.md R168) the engine is in. -/
inductive Site where
  | pass (p : Pass)
  | cmd17
  | cmd24
  | cmd25
  deriving DecidableEq, Repr

/-- The two block writes: WRITE_BLOCK (44_card_block_ops.md R207) and WRITE_SEGMENT (R197). -/
inductive WriteKind where
  | block | segment
  deriving DecidableEq, Repr

/-- The three card-busy polls: after WRITE_BLOCK, after WRITE_SEGMENT, after the stop token. -/
inductive BusyKind where
  | block | segment | stop
  deriving DecidableEq, Repr

/-- What follows an EPILOGUE (42_card_transport.md R169). -/
inductive After where
  /-- the pass ended, with success or not -/
  | pass (p : Pass) (ok : Bool)
  /-- the operation ends with this code (41_host_commands.md R150) -/
  | finish (c : Code)
  /-- LEAVE_SESSION's `SESSION <- READY`, then the operation ends (44_card_block_ops.md R196) -/
  | leave (c : Code)
  deriving DecidableEq, Repr

/-- The engine's control state: its position in the running operation's pseudocode, with loop counters and locals
(10_state.md R22). `left` counts the further iterations allowed after the one at this position. -/
inductive Pos where
  /-- `STATUS.BUSY = 0` -/
  | idle
  /-- INIT's first lines: SESSION and ATTEMPTS (43_card_init.md R173) -/
  | initBegin
  /-- IDLE_CLOCK's `FAST <- 0`, `CS(1)` (43_card_init.md R175) -/
  | initDeselect (att : Nat)
  /-- IDLE_CLOCK's idle bytes -/
  | initIdle (att left : Nat)
  /-- EXCHANGE's `CS(0)` (42_card_transport.md R168) -/
  | select (x : Site)
  /-- SEND_FRAME's byte 0, the card command (42_card_transport.md R164) -/
  | command (x : Site)
  /-- SEND_FRAME's byte `i`, 1 to 5 -/
  | frame (x : Site) (i : Nat)
  /-- R1POLL or R1POLL_B7 (42_card_transport.md R165, R166) -/
  | poll (x : Site) (left : Nat)
  /-- READ_BYTES(4) of CMD8 and CMD58: `got` bytes read so far, packed first byte high in `acc` -/
  | resp (p : Pass) (got : Nat) (acc : Word)
  /-- EPILOGUE's `CS(1)` -/
  | deselect (a : After)
  /-- EPILOGUE's trailing byte -/
  | trail (a : After)
  /-- TOKEN_POLL (42_card_transport.md R170) -/
  | tokenPoll (left : Nat)
  /-- READ_BLOCK's payload byte `i` (44_card_block_ops.md R189) -/
  | readData (i : Nat)
  /-- READ_BLOCK's first CRC byte -/
  | readCrcHigh
  /-- READ_BLOCK's second CRC byte; the first was `hi` -/
  | readCrcLow (hi : Byte)
  /-- BEGIN_SESSION's gap byte (44_card_block_ops.md R193) -/
  | gapSession
  /-- WRITE_BLOCK's gap byte -/
  | gapBlock
  /-- WRITE_BLOCK's token 0xFE -/
  | tokenBlock
  /-- WRITE_SEGMENT's token 0xFC -/
  | tokenSegment
  /-- `MemRead(TAIL +_N i)` (20_memory.md R71) -/
  | memRead (w : WriteKind) (i : Nat)
  /-- the payload byte just read, to be sent -/
  | payload (w : WriteKind) (i : Nat) (b : Byte)
  /-- the CRC filler bytes -/
  | filler (w : WriteKind) (left : Nat)
  /-- DRESP_FIRST or DRESP_ACCEPT (42_card_transport.md R172) -/
  | dresp (w : WriteKind) (left : Nat)
  /-- BUSY_POLL (42_card_transport.md R171) -/
  | busyPoll (k : BusyKind) (left : Nat)
  /-- END_SESSION's token 0xFD (44_card_block_ops.md R201) -/
  | tokenStop
  /-- the stuff byte (44_card_block_ops.md R202) -/
  | stuff
  deriving DecidableEq, Repr

/-- One event of the card-port trace (42_card_transport.md R159, R163). -/
inductive CardEvent where
  | cs (v : Bool)
  | xfer (csN : Bool) (tx rx : Byte)
  deriving DecidableEq, Repr

/-- The ring memory port's levels between accesses (20_memory.md R68). -/
structure MemPort where
  ceN : Bool
  weN : Bool
  dqInput : Bool
  deriving DecidableEq, Repr

/-- A line of a host program (30_encoding.md R115). Labels are line numbers and names are numbers. -/
inductive HostLine where
  | wr (addr : BitVec 12) (v : Word)
  | rd (addr : BitVec 12) (name : Nat)
  | bnz (name : Nat) (mask : Word) (label : Nat)
  | bz (name : Nat) (mask : Word) (label : Nat)
  deriving DecidableEq, Repr

/-- The host agent: its program, the line it runs next, and what its names are bound to, latest binding first. -/
structure HostAgent where
  prog : List HostLine
  line : Nat
  names : List (Nat × Word)
  deriving DecidableEq, Repr

/-- The ring memory: the bytes written, by offset, offsets strictly rising. -/
abbrev Memory := List Host.Cell

/-- The whole state. One-bit registers are `Bool`s; `true` is 1. -/
structure State where
  /-- build parameters (00_scope.md R10), never written -/
  par : Params
  /-- the events still to come: interleaving and inputs -/
  agenda : List Event
  /-- the card's answers still to come (30_encoding.md R117) -/
  miso : List Byte
  /-- how many free values were drawn -/
  draws : Nat
  /-- the host agent (30_encoding.md R115) -/
  host : HostAgent
  /-- clk_p, clk_c still held in reset (R239) -/
  rstP : Bool
  rstC : Bool
  /-- `HEAD` (R23) -/
  head : Word
  /-- `HEAD_G` (R24) -/
  headG : Word
  /-- `TAIL_S` (R25) -/
  tailS : Chain Word
  /-- `OVF` (R26) -/
  ovf : Bool
  /-- `PEN_S` (R27) -/
  penS : Chain Bool
  /-- `FAT_S` (R28) -/
  fatS : Chain Bool
  /-- `P_LOST` (R29) -/
  pLost : Bool
  /-- `PQ` (R30), next byte first -/
  pq : List Byte
  /-- `MARK_ARMED` (R31) -/
  markArmed : Bool
  /-- ring memory port (R68) -/
  mport : MemPort
  /-- the engine's read request register (R71, R72) -/
  memReq : Option Word
  /-- `TAIL_B` (R32) -/
  tailB : Word
  /-- `TAIL_G` (R33) -/
  tailG : Word
  /-- `HEAD_S` (R34) -/
  headS : Chain Word
  /-- `OVF_S`, `PLOST_S` (R35) -/
  ovfS : Chain Bool
  plostS : Chain Bool
  /-- `FATAL_C` (R36) -/
  fatalC : FatalC
  /-- `SESSION` (R37) -/
  session : Session
  /-- `FAST` (R38) -/
  fast : Bool
  /-- card-port outputs (R39) -/
  sdCsN : Bool
  sdMosi : Bool
  sdSclk : Bool
  /-- engine control state (R22) -/
  pos : Pos
  /-- the captured argument `a` (R145, R146) -/
  opArg : Word
  /-- `CTRL` (R41) -/
  ctrl : Ctrl
  /-- `ARG` (R43) -/
  arg : Word
  /-- `STATUS.DONE`, `STATUS.CMD_LOST`, `STATUS.CODE`, `STATUS.CCS`, `STATUS.ATTEMPTS` (R44) -/
  done : Bool
  cmdLost : Bool
  code : Code
  ccs : Bool
  attempts : BitVec 3
  /-- `LAST` (R45) -/
  lastR1 : Byte
  lastTok : Byte
  /-- `OCR` (R46), `R7` (R47), `SES_BLOCKS` (R51), `RDCRC[15:0]` (R53) -/
  ocr : Word
  r7 : Word
  sesBlocks : Word
  rdcrc : BitVec 16
  /-- `CFG_*` (R54 to R64) -/
  cfg : Cfg
  /-- `RDBUF` (R65), 512 bytes -/
  rdbuf : List Byte
  /-- `h_rdata` (R74), held between reads (log entry 30) -/
  hRdata : Word
  /-- how far the indicator pattern has come (R228) -/
  blink : Nat
  /-- the ring memory (R66, R67) -/
  mem : Memory
  /-- the card-port trace (R159, R163), latest event first -/
  cardTrace : List CardEvent
  /-- the offsets of the MemReads (R257), latest first -/
  memReads : List Word
  /-- the bytes the producer wrote since reset, latest first; its length is `H*` (R137) -/
  ringLog : List Byte
  /-- `T*` (R137): the ADVANCE_TAILs since reset -/
  freed : Nat
  deriving DecidableEq, Repr

/-- A chain of `S` stages all holding `v`. -/
def Chain.const {α : Type} (s : Nat) (v : α) : Chain α := { stages := List.replicate s v, old := none }

/-- `CFG_*` after reset (70_reset_and_hazards.md R240). -/
def Cfg.reset : Cfg :=
  { nIdle := 20#8, nNcr := 8#8, nCmd0 := 10#16, nCmd8 := 10#16, nCmd58 := 10#16, nCmd55 := 10#16,
    nAcmdR1 := 8#16, nAcmd41 := 4096#16, nRdtok := 65535#32, nDresp := 8#16, nBusy := 0x000FFFFF#32,
    nPre := 16#16, maxInit := 3#3, divSlow := 0x7F#8, divFast := 0x00#8, stopSkip := true }

/-- The state after reset of a build with parameters `p`: every value of 70_reset_and_hazards.md R240. `RDBUF`, which
that rule leaves unspecified, is 0 (log entry 5); `a` and `h_rdata`, which it does not list, are 0 (log entry 6). -/
def State.resetWith (p : Params) : State :=
  { par := p, agenda := [], miso := [], draws := 0, host := { prog := [], line := 0, names := [] },
    rstP := false, rstC := false,
    head := 0#32, headG := 0#32, tailS := Chain.const p.s 0#32, ovf := false,
    penS := Chain.const p.s false, fatS := Chain.const p.s false, pLost := false, pq := [],
    markArmed := true, mport := { ceN := true, weN := true, dqInput := true }, memReq := none,
    tailB := 0#32, tailG := 0#32, headS := Chain.const p.s 0#32,
    ovfS := Chain.const p.s false, plostS := Chain.const p.s false,
    fatalC := .none, session := .notInit, fast := false, sdCsN := true, sdMosi := true, sdSclk := false,
    pos := .idle, opArg := 0#32,
    ctrl := { prodEn := false, ieDone := false, ieReady := false, ieFatal := false },
    arg := 0#32, done := false, cmdLost := false, code := .ok, ccs := false, attempts := 0#3,
    lastR1 := 0xFF#8, lastTok := 0xFF#8, ocr := 0#32, r7 := 0#32, sesBlocks := 0#32, rdcrc := 0#16,
    cfg := Cfg.reset, rdbuf := List.replicate 512 0#8, hRdata := 0#32, blink := 0, mem := [],
    cardTrace := [], memReads := [], ringLog := [], freed := 0 }

/-- The machine right after reset, in the full-memory deployment with the default parameters of 00_scope.md R10. -/
def State.reset : State := State.resetWith Params.default

end Sys2Proof.Machine
end

