-- ==== Sys2Proof/Machine/Ops.lean ====
section
/-!
DEFINITION. The named operations over registers, crossings, ring memory and the card port, and how an operation
completes (the block's whole error model: there is no trap and no return, 60_exceptions.md R220, R221).
-/

namespace Sys2Proof.Machine

/-! ### Pointer arithmetic and Gray code -/

/-- The low `w` bits set. -/
def lowMask (w : Nat) : Word := BitVec.ofNat 32 (2 ^ w - 1)

/-- `a +_w b` (00_scope.md R12). -/
def addMod (w : Nat) (a b : Word) : Word := (a + b) &&& lowMask w

/-- `a -_w b` (00_scope.md R12). -/
def subMod (w : Nat) (a b : Word) : Word := (a - b) &&& lowMask w

/-- `bin2gray_W(b) = b ^ (b >> 1)` (30_encoding.md R112); the bits of `b` above `W` are 0. -/
def bin2gray (b : Word) : Word := b ^^^ (b >>> 1)

/-- `g ^ (g >> 1) ^ … ^ (g >> k)`. -/
def grayPrefix : Nat → Word → Word
  | 0, g => g
  | k + 1, g => grayPrefix k g ^^^ (g >>> (k + 1))

/-- `gray2bin_W(g) = g ^ (g >> 1) ^ … ^ (g >> (W-1))` (30_encoding.md R112). -/
def gray2bin (w : Nat) (g : Word) : Word := grayPrefix (w - 1) g

/-! ### Ring memory (20_memory.md R67 to R72) -/

/-- The canonical form of a memory: offsets strictly rising. An unlisted offset has no written byte. -/
abbrev Memory.wf (m : Memory) : Prop := m.Pairwise (fun a b => a.1 < b.1)

/-- The byte last written at an offset, if any (20_memory.md R70). -/
def Memory.read : Memory → Nat → Option Byte
  | [], _ => none
  | (a, b) :: m, k => if a = k then some b else Memory.read m k

/-- Write one byte (20_memory.md R70), keeping the canonical form. -/
def Memory.write : Memory → Nat → Byte → Memory
  | [], k, v => [(k, v)]
  | (a, b) :: m, k, v =>
    if k < a then (k, v) :: (a, b) :: m
    else if a = k then (k, v) :: m
    else (a, b) :: Memory.write m k v

/-- The port between accesses: every access drives its full address and chip-enable state itself and returns the port
to this (20_memory.md R68, R72). -/
def MemPort.idle : MemPort := { ceN := true, weN := true, dqInput := true }

/-- The byte a read at `off` returns: the last one written there, else the offset's free value (20_memory.md R70). -/
def State.ringByte (s : State) (off : Word) : Byte :=
  (Memory.read s.mem off.toNat).getD (Config.ringByte off.toNat)

/-- `MemWrite(off, v)`: one atomic access of the producer (20_memory.md R70). -/
def State.memWrite (s : State) (off : Word) (v : Byte) : State :=
  { s with mem := Memory.write s.mem off.toNat v, mport := MemPort.idle, ringLog := v :: s.ringLog }

/-- The report of a pending engine read that was not served yet (93_implementation_defined.md U7): its offset. A run
in which this stays the same offset for good is the hang that 70_reset_and_hazards.md R255 excludes (log entry 28). -/
def State.unservedRead (s : State) : Option Word := s.memReq

/-! ### Synchronizer chains (40_ring_buffer.md R136) -/

/-- The destination's view, `X_S[S]`. -/
def Chain.last {α : Type} (c : Chain α) (d : α) : α := c.stages.getLastD d

/-- The source has just changed; `v` is what it held before. -/
def Chain.changed {α : Type} (c : Chain α) (v : α) : Chain α := { c with old := some v }

/-- One destination edge with `v` captured by the first stage. -/
def Chain.shift {α : Type} (c : Chain α) (v : α) : Chain α :=
  { stages := (v :: c.stages).dropLast, old := none }

/-- The value a capture takes from a source now at `cur`, or none for a torn one. `bitsOf` gives a value's bits. -/
def Chain.capture {α : Type} (c : Chain α) (bitsOf : α → Word) (cur : α) : Capture → Option α
  | .current => some cur
  | .previous => some (c.old.getD cur)
  | .bits v =>
    if bitsOf cur = v then some cur
    else match c.old with
      | some o => if bitsOf o = v then some o else none
      | none => none

/-- The bits of a one-bit source. -/
def bitWord (b : Bool) : Word := if b then 1#32 else 0#32

/-! ### Views of the cursors and flags -/

/-- `TAIL = {TAIL_B, 9'b0}` (10_state.md R32). -/
def State.tail (s : State) : Word := s.tailB <<< 9

/-- `TAIL_P` (10_state.md R25). -/
def State.tailP (s : State) : Word := gray2bin s.par.tb (s.tailS.last 0#32) <<< 9

/-- `HEAD_C` (10_state.md R34). -/
def State.headC (s : State) : Word := gray2bin s.par.n (s.headS.last 0#32)

/-- `PENDING = HEAD_C -_N TAIL` (10_state.md R50, 40_ring_buffer.md R124). -/
def State.pending (s : State) : Word := subMod s.par.n s.headC s.tail

/-- `BLOCK_READY` (40_ring_buffer.md R128). -/
def State.blockReady (s : State) : Bool := decide (512#32 ≤ s.pending)

/-- `PEN_P` (10_state.md R27). -/
def State.penP (s : State) : Bool := s.penS.last false

/-- `FAT_P` (10_state.md R28). -/
def State.fatP (s : State) : Bool := s.fatS.last false

/-- `OVF_S[S]` (10_state.md R35). -/
def State.ovfSeen (s : State) : Bool := s.ovfS.last false

/-- `PLOST_S[S]` (10_state.md R35). -/
def State.pLostSeen (s : State) : Bool := s.plostS.last false

/-- `STATUS.BUSY`: a host operation runs (10_state.md R22). -/
def State.isBusy (s : State) : Bool := s.pos != .idle

/-- The number of `FATAL_C` (10_state.md R36). -/
def FatalC.bits : FatalC → BitVec 2
  | .none => 0#2
  | .cardNotInitialized => 2#2
  | .generic => 3#2

/-- `FATAL_C ≠ 0`, the bit that crosses to clk_p (10_state.md R28). -/
def FatalC.isSet : FatalC → Bool
  | .none => false
  | .cardNotInitialized => true
  | .generic => true

/-- `STATUS.FATAL` (60_exceptions.md R222): an overflow seen in clk_c is 1 and wins the display. -/
def State.fatal (s : State) : BitVec 2 := if s.ovfSeen then 1#2 else s.fatalC.bits

/-- The block is halted: `STATUS.FATAL ≠ 0` (60_exceptions.md R227). -/
def State.halted (s : State) : Bool := s.fatal != 0#2

/-! ### Sources of the crossings -/

/-- `HEAD <- HEAD +_N 1`, `HEAD_G` with it (40_ring_buffer.md R122). -/
def State.advanceHead (s : State) : State :=
  { s with head := addMod s.par.n s.head 1#32, headG := bin2gray (addMod s.par.n s.head 1#32),
           headS := s.headS.changed s.headG }

/-- ADVANCE_TAIL (40_ring_buffer.md R130). -/
def State.advanceTail (s : State) : State :=
  { s with tailB := addMod s.par.tb s.tailB 1#32, tailG := bin2gray (addMod s.par.tb s.tailB 1#32),
           tailS := s.tailS.changed s.tailG, freed := s.freed + 1 }

/-- `OVF <- 1` (40_ring_buffer.md R125). -/
def State.setOvf (s : State) : State :=
  if s.ovf then s else { s with ovf := true, ovfS := s.ovfS.changed false }

/-- `P_LOST <- 1` (40_ring_buffer.md R121). -/
def State.setPLost (s : State) : State :=
  if s.pLost then s else { s with pLost := true, plostS := s.plostS.changed false }

/-- `CTRL.PROD_EN <- v` (10_state.md R41). -/
def State.setProdEn (s : State) (v : Bool) : State :=
  if s.ctrl.prodEn = v then s
  else { s with ctrl := { s.ctrl with prodEn := v }, penS := s.penS.changed s.ctrl.prodEn }

/-- `FATAL_C <- c` from 0 (60_exceptions.md R223). -/
def State.setFatalC (s : State) (c : FatalC) : State :=
  { s with fatalC := c, fatS := s.fatS.changed s.fatalC.isSet }

/-! ### The card port (42_card_transport.md) -/

/-- `CS(v)` (42_card_transport.md R163). -/
def State.setCs (s : State) (v : Bool) : State :=
  { s with sdCsN := v, cardTrace := .cs v :: s.cardTrace }

/-- `XFER(tx)` that received `rx`, as one atomic event; afterwards the lines idle again (42_card_transport.md R159). -/
def State.xfer (s : State) (tx rx : Byte) : State :=
  { s with cardTrace := .xfer s.sdCsN tx rx :: s.cardTrace, sdMosi := true, sdSclk := false }

/-- The card oracle's next answer (60_exceptions.md R236): the script's, else a free value. -/
def State.cardAnswer (s : State) : Byte :=
  match s.miso with
  | b :: _ => b
  | [] => Config.cardByte s.draws

/-- The state after that answer was taken. -/
def State.answerTaken (s : State) : State :=
  match s.miso with
  | _ :: rest => { s with miso := rest }
  | [] => { s with draws := s.draws + 1 }

/-! ### Completion of an operation -/

/-- The number of a status code (60_exceptions.md R217). -/
def Code.byte : Code → Byte
  | .ok => 0x00#8
  | .eInitCmd0 => 0x01#8
  | .eInitCmd8 => 0x02#8
  | .eInitCmd58Pre => 0x03#8
  | .eInitCmd55 => 0x04#8
  | .eInitAcmd41 => 0x05#8
  | .eInitCmd58Post => 0x06#8
  | .eRdCmd => 0x10#8
  | .eRdToken => 0x11#8
  | .eWrCmd => 0x20#8
  | .eWrDrespTimeout => 0x21#8
  | .eWrCrc => 0x22#8
  | .eWrWrite => 0x23#8
  | .eWrDrespOther => 0x24#8
  | .eWrBusy => 0x25#8
  | .eSesCmd => 0x30#8
  | .eSesDresp => 0x31#8
  | .eSesBusy => 0x32#8
  | .eSesEndBusy => 0x33#8
  | .wPreCmd55 => 0x40#8
  | .wPreAcmd23 => 0x41#8
  | .eNotInit => 0x50#8
  | .eSessionOpen => 0x51#8
  | .eNoSession => 0x52#8
  | .eNoBlock => 0x53#8
  | .eBadOp => 0x54#8
  | .eHalted => 0x55#8

/-- The fatal code a completion with this status asks for (60_exceptions.md R223): 2 for the init class 0x01 to 0x06,
3 for the session-fatal class 0x10 to 0x33, none for the others. -/
def Code.fatalClass (c : Code) : FatalC :=
  if 0x01#8 ≤ c.byte ∧ c.byte ≤ 0x06#8 then .cardNotInitialized
  else if 0x10#8 ≤ c.byte ∧ c.byte ≤ 0x33#8 then .generic
  else .none

/-- FATAL_UPDATE (60_exceptions.md R223). -/
def State.fatalUpdate (s : State) (c : Code) : State :=
  if s.fatalC.isSet then s
  else if c.fatalClass.isSet then s.setFatalC c.fatalClass
  else s

/-- `finish(code)` and `raise OpFail(code)`, which are the same action (41_host_commands.md R150): the one shared
completion of a running operation. BUSY falls because the engine is idle. -/
def State.finish (s : State) (c : Code) : State :=
  { s.fatalUpdate c with code := c, pos := .idle, done := true }

/-- `complete_now(code)` (41_host_commands.md R149). -/
def State.completeNow (s : State) (c : Code) : State := { s with code := c, done := true }

end Sys2Proof.Machine
end

