-- ==== Sys2Proof/Machine/Operands.lean ====
section
/-!
DEFINITION. Operand forms: the command frames with their arguments and CRC bytes (30_encoding.md R90 to R94), the
ceilings each loop reads, the host operations with their captured argument (30_encoding.md R118).
-/

namespace Sys2Proof.Machine

/-- The nine commands the engine sends (30_encoding.md R93). -/
inductive CardCmd where
  | cmd0 | cmd8 | cmd17 | cmd24 | cmd25 | cmd55 | cmd58 | acmd41 | acmd23
  deriving DecidableEq, Repr

/-- The command index (30_encoding.md R93). -/
def CardCmd.index : CardCmd → BitVec 6
  | .cmd0 => 0#6
  | .cmd8 => 8#6
  | .cmd17 => 17#6
  | .cmd24 => 24#6
  | .cmd25 => 25#6
  | .cmd55 => 55#6
  | .cmd58 => 58#6
  | .acmd41 => 41#6
  | .acmd23 => 23#6

/-- The argument (30_encoding.md R93): `a` is the operation's captured argument, sent unmodified (R118). -/
def CardCmd.argument (c : CardCmd) (a : Word) : Word :=
  match c with
  | .cmd0 => 0x00000000#32
  | .cmd8 => 0x000001AA#32
  | .cmd17 => a
  | .cmd24 => a
  | .cmd25 => a
  | .cmd55 => 0x00000000#32
  | .cmd58 => 0x00000000#32
  | .acmd41 => 0x40000000#32
  | .acmd23 => a

/-- `CRCB(idx)` (30_encoding.md R92). -/
def crcByte (crcLiteral : Bool) (idx : BitVec 6) : Byte :=
  if crcLiteral then 0x01#8
  else if idx = 0#6 then 0x95#8
  else if idx = 8#6 then 0x87#8
  else 0x01#8

/-- The forcing of the framing bits (30_encoding.md R91). -/
def forceStart (b0 : Byte) : Byte := (b0 &&& 0x3F#8) ||| 0x40#8

/-- The forcing of the stop bit (30_encoding.md R91). -/
def forceStop (b5 : Byte) : Byte := b5 ||| 0x01#8

/-- The six bytes of a frame (30_encoding.md R90, 42_card_transport.md R164). -/
def frameBytes (crcLiteral : Bool) (idx : BitVec 6) (arg : Word) : List Byte :=
  [ forceStart (0x40#8 ||| idx.setWidth 8),
    arg.extractLsb' 24 8, arg.extractLsb' 16 8, arg.extractLsb' 8 8, arg.extractLsb' 0 8,
    forceStop (crcByte crcLiteral idx) ]

/-- The command of an exchange. -/
def Site.cmd : Site → CardCmd
  | .pass (.cmd0 _ _) => .cmd0
  | .pass (.cmd8 _ _) => .cmd8
  | .pass (.cmd58Pre _ _) => .cmd58
  | .pass (.cmd55Init _ _ _) => .cmd55
  | .pass (.acmd41 _ _) => .acmd41
  | .pass (.cmd58Post _ _) => .cmd58
  | .pass (.cmd55Erase _ _) => .cmd55
  | .pass (.acmd23 _) => .acmd23
  | .cmd17 => .cmd17
  | .cmd24 => .cmd24
  | .cmd25 => .cmd25

/-- The frame an exchange sends in a state. -/
def State.frameOf (s : State) (x : Site) : List Byte :=
  frameBytes s.par.crcLiteral x.cmd.index (x.cmd.argument s.opArg)

/-- Byte `i` of that frame, 0 ≤ i ≤ 5. -/
def State.frameByte (s : State) (x : Site) (i : Nat) : Byte := (s.frameOf x).getD i idleByte

/-- ACMD41 and ACMD23 are read with R1POLL_B7, every other command with R1POLL (42_card_transport.md R165, R166). -/
def Site.pollB7 (x : Site) : Bool :=
  match x.cmd with
  | .cmd0 => false
  | .cmd8 => false
  | .cmd17 => false
  | .cmd24 => false
  | .cmd25 => false
  | .cmd55 => false
  | .cmd58 => false
  | .acmd41 => true
  | .acmd23 => true

/-- The byte ends the exchange's response poll (42_card_transport.md R165, R166). -/
def Site.pollEnds (x : Site) (r : Byte) : Bool :=
  if x.pollB7 then !r.getLsbD 7 else r != idleByte

/-- The iterations that may follow the first of a `repeat n`, for the ceilings of 10_state.md R54 to R63, all of
which are at least 1 (log entry 14). -/
def furtherPasses {w : Nat} (n : BitVec w) : Nat := n.toNat - 1

/-- The iterations of an exchange's response poll after the first: `N_ACMDR1` or `N_NCR` is the ceiling. -/
def State.pollLeft (s : State) (x : Site) : Nat :=
  if x.pollB7 then furtherPasses s.cfg.nAcmdR1 else furtherPasses s.cfg.nNcr

/-- The host operations that START begins (41_host_commands.md R144). -/
inductive HostOp where
  | init | readBlock | writeBlock | beginSession | writeSegment | endSession | preErase
  deriving DecidableEq, Repr

/-- The first position of an operation's pseudocode (43_card_init.md, 44_card_block_ops.md). -/
def State.firstPos (s : State) : HostOp → Pos
  | .init => .initBegin
  | .readBlock => .select .cmd17
  | .writeBlock => .select .cmd24
  | .beginSession => .select .cmd25
  | .writeSegment => .tokenSegment
  | .endSession => .tokenStop
  | .preErase => .select (.pass (.cmd55Erase (furtherPasses s.cfg.nPre) (furtherPasses s.cfg.nCmd55)))

/-- `START(op)` (41_host_commands.md R145): DONE falls, `a` is captured, the engine is at the operation's first line
(so BUSY is 1). -/
def State.start (s : State) (op : HostOp) : State :=
  { s with done := false, opArg := s.arg, pos := s.firstPos op }

end Sys2Proof.Machine
end

