-- ==== Sys2Proof/Machine/Flags.lean ====
section
/-!
DEFINITION. The status words and outputs computed from the registers: STATUS, LAST, PARAM, CTRL (10_state.md R41,
R44, R45, R52), `irq` (60_exceptions.md R229), the indicators (R228), `p_ready` (10_state.md R30), and the checks of
PRECHECK (41_host_commands.md R148).
-/

namespace Sys2Proof.Machine

/-- The number of `SESSION` (10_state.md R37). -/
def Session.bits : Session → BitVec 2
  | .notInit => 0#2
  | .initializing => 1#2
  | .ready => 2#2
  | .sessionOpen => 3#2

/-- One bit of a host word at place `k`. -/
def bitAt (b : Bool) (k : Nat) : Word := bitWord b <<< k

/-- `STATUS` (10_state.md R44). -/
def State.statusWord (s : State) : Word :=
  bitAt s.isBusy 0 ||| bitAt s.done 1 ||| bitAt s.blockReady 2 ||| bitAt s.cmdLost 3 |||
  (s.session.bits.setWidth 32 <<< 4) ||| bitAt s.fast 7 ||| (s.code.byte.setWidth 32 <<< 8) |||
  (s.fatal.setWidth 32 <<< 16) ||| bitAt s.ovfSeen 18 ||| bitAt s.ccs 19 |||
  (s.attempts.setWidth 32 <<< 20) ||| bitAt s.pLostSeen 23

/-- `CTRL` (10_state.md R41). -/
def State.ctrlWord (s : State) : Word :=
  bitAt s.ctrl.prodEn 0 ||| bitAt s.ctrl.ieDone 1 ||| bitAt s.ctrl.ieReady 2 ||| bitAt s.ctrl.ieFatal 3

/-- `LAST` (10_state.md R45). -/
def State.lastWord (s : State) : Word :=
  s.lastR1.setWidth 32 ||| (s.lastTok.setWidth 32 <<< 8)

/-- `PARAM` (10_state.md R52). -/
def State.paramWord (s : State) : Word :=
  BitVec.ofNat 32 (s.par.n % 64) ||| (BitVec.ofNat 32 (s.par.s % 16) <<< 8) |||
  bitAt s.par.lsbFirst 12 ||| bitAt s.par.crcLiteral 13

/-- `irq` (60_exceptions.md R229). -/
def State.irq (s : State) : Bool :=
  (s.done && s.ctrl.ieDone) || (s.blockReady && s.ctrl.ieReady) || (s.halted && s.ctrl.ieFatal)

/-- `p_ready` (10_state.md R30). -/
def State.pReady (s : State) : Bool := s.pq.isEmpty

/-- The pattern of 60_exceptions.md R228 as phases: phase `2k` is the high time and `2k+1` the low time of pulse `k`.
For fatal code `c`, pulses 0 to `c-1` are on `ind_a` and pulse `c` is on `ind_b`; then it repeats. -/
def blinkPeriod (c : BitVec 2) : Nat := 2 * (c.toNat + 1)

/-- `ind_a` (60_exceptions.md R228). Phase 0 is high, so the first pulse rises in the event that makes FATAL non-zero,
a moment the spec leaves open (93_implementation_defined.md U3): DESIGN CHOICE, log entry 19. -/
def State.indA (s : State) : Bool :=
  s.halted && decide (s.blink % 2 = 0) && decide (s.blink / 2 < s.fatal.toNat)

/-- `ind_b` (60_exceptions.md R228). -/
def State.indB (s : State) : Bool :=
  s.halted && decide (s.blink % 2 = 0) && decide (s.blink / 2 = s.fatal.toNat)

/-- One edge of the indicator pattern. -/
def State.blinkEdge (s : State) : State :=
  if s.halted then
    { s with blink := if s.blink + 1 < blinkPeriod s.fatal then s.blink + 1 else 0 }
  else { s with blink := 0 }

/-- How many clk_c cycles one XFER takes, `16 * (DIV + 1)` (42_card_transport.md R161). -/
def State.xferCycles (s : State) : Nat :=
  16 * ((if s.fast then s.cfg.divFast.toNat else s.cfg.divSlow.toNat) + 1)

/-- The operation needs READY (41_host_commands.md R148): E_NOT_INIT when not initialized, E_SESSION_OPEN when a
session is open. -/
def Session.needReady : Session → Option Code
  | .notInit => some .eNotInit
  | .initializing => some .eNotInit
  | .ready => none
  | .sessionOpen => some .eSessionOpen

/-- The operation needs an open session (41_host_commands.md R148). -/
def Session.needOpen : Session → Option Code
  | .notInit => some .eNoSession
  | .initializing => some .eNoSession
  | .ready => some .eNoSession
  | .sessionOpen => none

/-- INIT needs NOT_INIT or READY (41_host_commands.md R148). -/
def Session.needClosed : Session → Option Code
  | .notInit => none
  | .initializing => some .eSessionOpen
  | .ready => none
  | .sessionOpen => some .eSessionOpen

/-- The `BLOCK_READY` column of 41_host_commands.md R148, checked after the SESSION column. -/
def State.needBlock (s : State) : Option Code := if s.blockReady then none else some .eNoBlock

/-- PRECHECK(op) (41_host_commands.md R148): none is OK. -/
def State.precheck (s : State) : HostOp → Option Code
  | .init => s.session.needClosed
  | .readBlock => s.session.needReady
  | .writeBlock => s.session.needReady.or s.needBlock
  | .beginSession => s.session.needReady
  | .writeSegment => s.session.needOpen.or s.needBlock
  | .endSession => s.session.needOpen
  | .preErase => s.session.needReady

end Sys2Proof.Machine
end

