-- ==== Sys2Proof/Machine/Engine.lean ====
section
/-!
DEFINITION. The engine: the pseudocode of 42_card_transport.md, 43_card_init.md and 44_card_block_ops.md as a machine
over `Pos`. One engine event is one XFER, one CS, one MemRead or one register write. The register writes that the
pseudocode makes right after such an event belong to it (log entry 7).
-/

namespace Sys2Proof.Machine

/-- Move the engine's position. -/
def State.goto (s : State) (p : Pos) : State := { s with pos := p }

/-! ### INIT's attempts and passes (43_card_init.md) -/

/-- The next attempt: `k <- k + 1`, `STATUS.ATTEMPTS <- k`, then IDLE_CLOCK (43_card_init.md R173, R174). -/
def State.beginAttempt (s : State) (att : Nat) : State :=
  { s with attempts := BitVec.ofNat 3 att, pos := .initDeselect att }

/-- An attempt failed with `c`: another one while fewer than `MAX_INIT` were made, else NOT_INIT and `finish(c)`
(43_card_init.md R173, R186). -/
def State.attemptFailed (s : State) (att : Nat) (c : Code) : State :=
  if att < s.cfg.maxInit.toNat then s.beginAttempt (att + 1)
  else { s with session := .notInit }.finish c

/-- What a pass of a retry loop leads to, after its EPILOGUE. -/
def State.passDone (s : State) (p : Pass) (ok : Bool) : State :=
  match p, ok with
  -- STEP_CMD0 (43_card_init.md R176)
  | .cmd0 att _, true => s.goto (.select (.pass (.cmd8 att (furtherPasses s.cfg.nCmd8))))
  | .cmd0 att (left + 1), false => s.goto (.select (.pass (.cmd0 att left)))
  | .cmd0 att 0, false => s.attemptFailed att .eInitCmd0
  -- STEP_CMD8 (R178)
  | .cmd8 att _, true => s.goto (.select (.pass (.cmd58Pre att (furtherPasses s.cfg.nCmd58))))
  | .cmd8 att (left + 1), false => s.goto (.select (.pass (.cmd8 att left)))
  | .cmd8 att 0, false => s.attemptFailed att .eInitCmd8
  -- STEP_CMD58_PRE (R179)
  | .cmd58Pre att _, true =>
    s.goto (.select (.pass (.cmd55Init att (furtherPasses s.cfg.nAcmd41) (furtherPasses s.cfg.nCmd55))))
  | .cmd58Pre att (left + 1), false => s.goto (.select (.pass (.cmd58Pre att left)))
  | .cmd58Pre att 0, false => s.attemptFailed att .eInitCmd58Pre
  -- STEP_ACMD41 with CMD55_RETRY(0x01) (R180, R181, R182)
  | .cmd55Init att outer _, true => s.goto (.select (.pass (.acmd41 att outer)))
  | .cmd55Init att outer (left + 1), false => s.goto (.select (.pass (.cmd55Init att outer left)))
  | .cmd55Init att _ 0, false => s.attemptFailed att .eInitCmd55
  | .acmd41 att _, true =>
    { s with fast := true }.goto (.select (.pass (.cmd58Post att (furtherPasses s.cfg.nCmd58))))
  | .acmd41 att (outer + 1), false =>
    s.goto (.select (.pass (.cmd55Init att outer (furtherPasses s.cfg.nCmd55))))
  | .acmd41 att 0, false => s.attemptFailed att .eInitAcmd41
  -- STEP_CMD58_POST (R184, R185)
  | .cmd58Post _ _, true => { s with session := .ready }.finish .ok
  | .cmd58Post att (left + 1), false => s.goto (.select (.pass (.cmd58Post att left)))
  | .cmd58Post att 0, false => s.attemptFailed att .eInitCmd58Post
  -- PRE_ERASE (44_card_block_ops.md R204)
  | .cmd55Erase outer _, true => s.goto (.select (.pass (.acmd23 outer)))
  | .cmd55Erase outer (left + 1), false => s.goto (.select (.pass (.cmd55Erase outer left)))
  | .cmd55Erase _ 0, false => s.finish .wPreCmd55
  | .acmd23 _, true => s.finish .ok
  | .acmd23 (outer + 1), false =>
    s.goto (.select (.pass (.cmd55Erase outer (furtherPasses s.cfg.nCmd55))))
  | .acmd23 0, false => s.finish .wPreAcmd23

/-! ### The end of a response poll and of a four-byte response -/

/-- The R1 a pass of a retry loop waits for (43_card_init.md R176 to R184, 44_card_block_ops.md R204). -/
def Pass.expected : Pass → Byte
  | .cmd0 _ _ => 0x01#8
  | .cmd8 _ _ => 0x01#8
  | .cmd58Pre _ _ => 0x01#8
  | .cmd55Init _ _ _ => 0x01#8
  | .acmd41 _ _ => 0x00#8
  | .cmd58Post _ _ => 0x00#8
  | .cmd55Erase _ _ => 0x00#8
  | .acmd23 _ => 0x00#8

/-- CMD8 and CMD58 read four more bytes after the expected R1 (30_encoding.md R97, R104). -/
def Pass.hasResponse : Pass → Bool
  | .cmd0 _ _ => false
  | .cmd8 _ _ => true
  | .cmd58Pre _ _ => true
  | .cmd55Init _ _ _ => false
  | .acmd41 _ _ => false
  | .cmd58Post _ _ => true
  | .cmd55Erase _ _ => false
  | .acmd23 _ => false

/-- The caller's use of the R1 that a response poll returned. -/
def State.r1Done (s : State) (x : Site) (r : Byte) : State :=
  match x with
  | .pass p =>
    if r = p.expected then
      if p.hasResponse then s.goto (.resp p 0 0#32) else s.goto (.deselect (.pass p true))
    else s.goto (.deselect (.pass p false))
  -- READ_BLOCK (44_card_block_ops.md R189)
  | .cmd17 =>
    if r = 0x00#8 then s.goto (.tokenPoll (furtherPasses s.cfg.nRdtok))
    else s.goto (.deselect (.finish .eRdCmd))
  -- WRITE_BLOCK (R207)
  | .cmd24 => if r = 0x00#8 then s.goto .gapBlock else s.goto (.deselect (.finish .eWrCmd))
  -- BEGIN_SESSION (R192)
  | .cmd25 => if r = 0x00#8 then s.goto .gapSession else s.goto (.deselect (.finish .eSesCmd))

/-- The four bytes after an expected R1, first byte high in `v`: R7 (43_card_init.md R178), discarded (R179), OCR and
CCS (R184). No other exchange reads them. -/
def State.respDone (s : State) (p : Pass) (v : Word) : State :=
  match p with
  | .cmd8 _ _ => { s with r7 := v }.goto (.deselect (.pass p (v.extractLsb' 0 8 == 0xAA#8)))
  | .cmd58Post _ _ => { s with ocr := v, ccs := v.getLsbD 30 }.goto (.deselect (.pass p true))
  | .cmd0 _ _ => s.goto (.deselect (.pass p true))
  | .cmd58Pre _ _ => s.goto (.deselect (.pass p true))
  | .cmd55Init _ _ _ => s.goto (.deselect (.pass p true))
  | .acmd41 _ _ => s.goto (.deselect (.pass p true))
  | .cmd55Erase _ _ => s.goto (.deselect (.pass p true))
  | .acmd23 _ => s.goto (.deselect (.pass p true))

/-- After an EPILOGUE's trailing byte. -/
def State.afterTrail (s : State) (a : After) : State :=
  match a with
  | .pass p ok => s.passDone p ok
  | .finish c => s.finish c
  | .leave c => { s with session := .ready }.finish c

/-! ### Block data -/

/-- The next payload byte of a write: the engine places `TAIL +_N i` in its request register and raises the request
(20_memory.md R71). -/
def State.requestRead (s : State) (w : WriteKind) (i : Nat) : State :=
  { s with memReq := some (addMod s.par.n s.tail (BitVec.ofNat 32 i)), pos := .memRead w i }

/-- `MemRead`, one atomic event: the arbiter serves the pending request in a clk_p cycle in which the producer has no
byte to write; until then the engine waits (20_memory.md R69, R71). No fairness is assumed, so a run in which the read
is never served is let through (70_reset_and_hazards.md R255): DESIGN CHOICE, log entry 28. `State.unservedRead`
reports it. -/
def State.serveRead (s : State) (w : WriteKind) (i : Nat) : State :=
  match s.memReq with
  | some off =>
    if s.pq.isEmpty && !s.rstP then
      { s with memReq := none, mport := MemPort.idle, memReads := off :: s.memReads,
               pos := .payload w i (s.ringByte off) }
    else s
  | none => s

/-- The busy poll that follows an accepted block. -/
def WriteKind.busyKind : WriteKind → BusyKind
  | .block => .block
  | .segment => .segment

/-- An accepted block releases the tail before the busy poll; a segment is also counted
(44_card_block_ops.md R199, R208). -/
def State.blockAccepted (s : State) (w : WriteKind) : State :=
  match w with
  | .block => s.advanceTail.goto (.busyPoll .block (furtherPasses s.cfg.nBusy))
  | .segment =>
    { s.advanceTail with sesBlocks := s.sesBlocks + 1#32 }.goto (.busyPoll .segment (furtherPasses s.cfg.nBusy))

/-- CLASSIFY (44_card_block_ops.md R208). -/
def State.classify (s : State) (t : Byte) : State :=
  if t &&& 0x1F#8 = 0x05#8 then s.blockAccepted .block
  else if t &&& 0x1F#8 = 0x0B#8 then s.goto (.deselect (.finish .eWrCrc))
  else if t &&& 0x1F#8 = 0x0D#8 then s.goto (.deselect (.finish .eWrWrite))
  else s.goto (.deselect (.finish .eWrDrespOther))

/-- One byte of a data-response poll: DRESP_FIRST for WRITE_BLOCK, DRESP_ACCEPT for WRITE_SEGMENT
(42_card_transport.md R172). `LAST_TOK` is already written. -/
def State.drespByte (s : State) (w : WriteKind) (left : Nat) (r : Byte) : State :=
  match w with
  | .block =>
    if r ≠ idleByte then s.classify r
    else match left with
      | 0 => s.goto (.deselect (.finish .eWrDrespTimeout))
      | l + 1 => s.goto (.dresp .block l)
  | .segment =>
    if r &&& 0x1F#8 = 0x05#8 then s.blockAccepted .segment
    else match left with
      | 0 => s.goto (.deselect (.leave .eSesDresp))
      | l + 1 => s.goto (.dresp .segment l)

/-- The card is no longer busy (44_card_block_ops.md R197, R201, R208). -/
def State.busyCleared (s : State) (k : BusyKind) : State :=
  match k with
  | .block => s.goto (.deselect (.finish .ok))
  | .segment => s.finish .ok
  | .stop => s.goto (.deselect (.leave .ok))

/-- The card is still busy after `N_BUSY` bytes. -/
def State.busyTimeout (s : State) (k : BusyKind) : State :=
  match k with
  | .block => s.goto (.deselect (.finish .eWrBusy))
  | .segment => s.goto (.deselect (.leave .eSesBusy))
  | .stop => s.goto (.deselect (.leave .eSesEndBusy))

/-! ### One XFER -/

/-- The byte the engine sends in its next event when that event is an XFER. -/
def State.nextTx (s : State) : Option Byte :=
  match s.pos with
  | .idle => none
  | .initBegin => none
  | .initDeselect _ => none
  | .initIdle _ _ => some idleByte
  | .select _ => none
  | .command x => some (s.frameByte x 0)
  | .frame x i => some (s.frameByte x i)
  | .poll _ _ => some idleByte
  | .resp _ _ _ => some idleByte
  | .deselect _ => none
  | .trail _ => some idleByte
  | .tokenPoll _ => some idleByte
  | .readData _ => some idleByte
  | .readCrcHigh => some idleByte
  | .readCrcLow _ => some idleByte
  | .gapSession => some idleByte
  | .gapBlock => some idleByte
  | .tokenBlock => some 0xFE#8
  | .tokenSegment => some 0xFC#8
  | .memRead _ _ => none
  | .payload _ _ b => some b
  | .filler _ _ => some idleByte
  | .dresp _ _ => some idleByte
  | .busyPoll _ _ => some idleByte
  | .tokenStop => some 0xFD#8
  | .stuff => some idleByte

/-- What the pseudocode does with the byte `r` that an XFER received. Positions without an XFER are left alone. -/
def State.received (s : State) (r : Byte) : State :=
  match s.pos with
  | .initIdle att (left + 1) => s.goto (.initIdle att left)
  | .initIdle att 0 => s.goto (.select (.pass (.cmd0 att (furtherPasses s.cfg.nCmd0))))
  | .command x => s.goto (.frame x 1)
  | .frame x i => if i < 5 then s.goto (.frame x (i + 1)) else s.goto (.poll x (s.pollLeft x))
  | .poll x left =>
    if x.pollEnds r then { s with lastR1 := r }.r1Done x r
    else match left with
      | 0 => { s with lastR1 := r }.r1Done x r
      | l + 1 => s.goto (.poll x l)
  | .resp p got acc =>
    if got < 3 then s.goto (.resp p (got + 1) ((acc <<< 8) ||| r.setWidth 32))
    else s.respDone p ((acc <<< 8) ||| r.setWidth 32)
  | .trail a => s.afterTrail a
  | .tokenPoll left =>
    if r = 0xFE#8 then { s with lastTok := r }.goto (.readData 0)
    else match left with
      | 0 => { s with lastTok := r }.goto (.deselect (.finish .eRdToken))
      | l + 1 => { s with lastTok := r }.goto (.tokenPoll l)
  | .readData i =>
    if i < 511 then { s with rdbuf := s.rdbuf.set i r }.goto (.readData (i + 1))
    else { s with rdbuf := s.rdbuf.set i r }.goto .readCrcHigh
  | .readCrcHigh => s.goto (.readCrcLow r)
  | .readCrcLow hi => { s with rdcrc := hi ++ r }.goto (.deselect (.finish .ok))
  | .gapSession => { s with sesBlocks := 0#32, session := .sessionOpen }.finish .ok
  | .gapBlock => s.goto .tokenBlock
  | .tokenBlock => s.requestRead .block 0
  | .tokenSegment => s.requestRead .segment 0
  | .payload w i _ => if i < 511 then s.requestRead w (i + 1) else s.goto (.filler w 1)
  | .filler w (left + 1) => s.goto (.filler w left)
  | .filler w 0 => s.goto (.dresp w (furtherPasses s.cfg.nDresp))
  | .dresp w left => { s with lastTok := r }.drespByte w left r
  | .busyPoll k left =>
    if r ≠ 0x00#8 then s.busyCleared k
    else match left with
      | 0 => s.busyTimeout k
      | l + 1 => s.goto (.busyPoll k l)
  | .tokenStop =>
    if s.cfg.stopSkip then s.goto .stuff else s.goto (.busyPoll .stop (furtherPasses s.cfg.nBusy))
  | .stuff => s.goto (.busyPoll .stop (furtherPasses s.cfg.nBusy))
  | .idle => s
  | .initBegin => s
  | .initDeselect _ => s
  | .select _ => s
  | .deselect _ => s
  | .memRead _ _ => s

/-- The engine's next XFER, in which the card answers `r`. Where the engine's next event is no XFER it clocks no byte,
and nothing happens (41_host_commands.md R155: an idle engine performs no XFER). -/
def State.exchange (s : State) (r : Byte) : State :=
  match s.nextTx with
  | some tx => (s.xfer tx r).received r
  | none => s

/-- The engine's next event when it is no XFER: a CS, a MemRead or a register write. An idle engine of a halted block
that finds the card selected deselects it once (60_exceptions.md R227). IDLE_CLOCK's `FAST <- 0`, which
43_card_init.md R175 only orders before `CS(1)`, is made in the event of that `CS(1)`: DESIGN CHOICE, log entry 7. -/
def State.internal (s : State) : State :=
  match s.pos with
  | .idle => if s.halted && !s.sdCsN then s.setCs true else s
  | .initBegin => { s with session := .initializing }.beginAttempt 1
  | .initDeselect att =>
    ({ s with fast := false }.setCs true).goto (.initIdle att (furtherPasses s.cfg.nIdle))
  | .select x => (s.setCs false).goto (.command x)
  | .deselect a => (s.setCs true).goto (.trail a)
  | .memRead w i => s.serveRead w i
  | .initIdle _ _ => s
  | .command _ => s
  | .frame _ _ => s
  | .poll _ _ => s
  | .resp _ _ _ => s
  | .trail _ => s
  | .tokenPoll _ => s
  | .readData _ => s
  | .readCrcHigh => s
  | .readCrcLow _ => s
  | .gapSession => s
  | .gapBlock => s
  | .tokenBlock => s
  | .tokenSegment => s
  | .payload _ _ _ => s
  | .filler _ _ => s
  | .dresp _ _ => s
  | .busyPoll _ _ => s
  | .tokenStop => s
  | .stuff => s

/-- What the engine's next event puts on the card port: nothing, a byte it chooses itself, or a filler byte whose answer
matters (with the format the answer is read in). -/
inductive Port where
  | internal
  | send (f : Format)
  | receive (f : Format)
  deriving DecidableEq, Repr

/-- The kind of the engine's next event. -/
def Pos.port : Pos → Port
  | .idle => .internal
  | .initBegin => .internal
  | .initDeselect _ => .internal
  | .initIdle _ _ => .receive .idle
  | .select _ => .internal
  | .command _ => .send .cardcmd
  | .frame _ _ => .receive .idle
  | .poll _ _ => .receive .idle
  | .resp _ _ _ => .receive .idle
  | .deselect _ => .internal
  | .trail _ => .receive .idle
  | .tokenPoll _ => .receive .token
  | .readData _ => .receive .idle
  | .readCrcHigh => .receive .idle
  | .readCrcLow _ => .receive .idle
  | .gapSession => .receive .idle
  | .gapBlock => .receive .idle
  | .tokenBlock => .send .token
  | .tokenSegment => .send .token
  | .memRead _ _ => .internal
  | .payload _ _ _ => .receive .idle
  | .filler _ _ => .receive .idle
  | .dresp _ _ => .receive .dresp
  | .busyPoll _ _ => .receive .busy
  | .tokenStop => .send .token
  | .stuff => .receive .idle

end Sys2Proof.Machine
end

