-- ==== Sys2Proof/Machine/CardCommands.lean ====
section
/-!
DEFINITION. The meanings of the card command bytes. The engine sends the first byte of the frame of the exchange it
is in (42_card_transport.md R164), takes the card's byte, and goes on to the frame's other five bytes, the response
poll and what the operation does with the answer (Engine.lean).
-/

namespace Sys2Proof.Machine

/-- The engine sends the byte it has ready; the card answers its next byte. -/
def State.send (s : State) : State := s.answerTaken.exchange s.cardAnswer

/-- The first frame byte of command `c`: sent when the engine is at that point of an exchange with that command. The
block has no raw-command operation (30_encoding.md R94), so elsewhere nothing is sent. -/
def State.sendCommand (s : State) (c : CardCmd) : State :=
  match s.pos with
  | .command x => if x.cmd = c then s.send else s
  | _ => s

/-- CMD0, software reset (43_card_init.md R176). -/
def execCmd0 (s : State) : Host.Outcome State Fault Refusal := .next (s.sendCommand .cmd0)

/-- CMD8, interface condition (43_card_init.md R178). -/
def execCmd8 (s : State) : Host.Outcome State Fault Refusal := .next (s.sendCommand .cmd8)

/-- CMD17, block read (44_card_block_ops.md R189). -/
def execCmd17 (s : State) : Host.Outcome State Fault Refusal := .next (s.sendCommand .cmd17)

/-- CMD24, single-block write (44_card_block_ops.md R207). -/
def execCmd24 (s : State) : Host.Outcome State Fault Refusal := .next (s.sendCommand .cmd24)

/-- CMD25, multi-block write (44_card_block_ops.md R192). -/
def execCmd25 (s : State) : Host.Outcome State Fault Refusal := .next (s.sendCommand .cmd25)

/-- CMD55, application prefix (43_card_init.md R181, 44_card_block_ops.md R204). -/
def execCmd55 (s : State) : Host.Outcome State Fault Refusal := .next (s.sendCommand .cmd55)

/-- CMD58, OCR probe (43_card_init.md R179, R184). -/
def execCmd58 (s : State) : Host.Outcome State Fault Refusal := .next (s.sendCommand .cmd58)

/-- ACMD41, application init (43_card_init.md R182). -/
def execAcmd41 (s : State) : Host.Outcome State Fault Refusal := .next (s.sendCommand .acmd41)

/-- ACMD23, pre-erase count (44_card_block_ops.md R204). -/
def execAcmd23 (s : State) : Host.Outcome State Fault Refusal := .next (s.sendCommand .acmd23)

end Sys2Proof.Machine
end

