-- ==== Sys2Proof/Machine/CardBytes.lean ====
section
/-!
DEFINITION. The meanings of the tokens, data responses, busy byte and idle byte. A byte that the card sends is the
answer of the engine's next XFER, and what it does depends on the poll or read the engine is in (30_encoding.md
R104). A byte that the engine sends is sent where the pseudocode sends it. While the engine's next event is no XFER
(an idle engine, a CS, a MemRead) no byte is clocked and nothing happens (41_host_commands.md R155).
-/

namespace Sys2Proof.Machine

/-- START_BLOCK 0xFE (30_encoding.md R100): sent by WRITE_BLOCK (44_card_block_ops.md R207), else the card's answer,
which ends the token poll (42_card_transport.md R170). -/
def execStartBlock (s : State) : Host.Outcome State Fault Refusal :=
  .next (if s.pos = .tokenBlock then s.send else s.exchange 0xFE#8)

/-- START_MULTI 0xFC: sent by WRITE_SEGMENT (44_card_block_ops.md R197), else a card byte of that value. -/
def execStartMulti (s : State) : Host.Outcome State Fault Refusal :=
  .next (if s.pos = .tokenSegment then s.send else s.exchange 0xFC#8)

/-- STOP_TRAN 0xFD: sent by END_SESSION (44_card_block_ops.md R201), else a card byte of that value. -/
def execStopTran (s : State) : Host.Outcome State Fault Refusal :=
  .next (if s.pos = .tokenStop then s.send else s.exchange 0xFD#8)

/-- A data response with `tok[4:0] = 0b00101`: accepted (44_card_block_ops.md R199, R208). -/
def execDrespAccepted (tok : Byte) (s : State) : Host.Outcome State Fault Refusal := .next (s.exchange tok)

/-- A data response with `tok[4:0] = 0b01011`: CRC error (44_card_block_ops.md R208). -/
def execDrespCrcError (tok : Byte) (s : State) : Host.Outcome State Fault Refusal := .next (s.exchange tok)

/-- A data response with `tok[4:0] = 0b01101`: write error (44_card_block_ops.md R208). -/
def execDrespWriteError (tok : Byte) (s : State) : Host.Outcome State Fault Refusal := .next (s.exchange tok)

/-- The busy byte 0x00 (30_encoding.md R102): a busy poll goes on (42_card_transport.md R171). -/
def execBusy (s : State) : Host.Outcome State Fault Refusal := .next (s.exchange 0x00#8)

/-- The idle byte 0xFF (30_encoding.md R103): "no response yet" in a response poll, "not busy" in a busy poll. -/
def execIdle (s : State) : Host.Outcome State Fault Refusal := .next (s.exchange 0xFF#8)

end Sys2Proof.Machine
end

