-- ==== Sys2Proof/Machine/HostOps.lean ====
section
/-!
DEFINITION. The meanings of the host command words: what a write to CMD does in the clk_c cycle of the write
(41_host_commands.md R143). A started operation then runs event by event in the engine (Engine.lean).
-/

namespace Sys2Proof.Machine

/-- The order of 41_host_commands.md R143 for a word that is not NOP: busy (R157), halted (R154), then `rest`. -/
def State.commandWrite (s : State) (rest : State) : State :=
  if s.isBusy then { s with cmdLost := true }
  else if s.halted then s.completeNow .eHalted
  else rest

/-- The rest of R143 for an operation: PRECHECK (R148), else START (R145). -/
def State.checkAndStart (s : State) (op : HostOp) : State :=
  match s.precheck op with
  | some e => s.completeNow e
  | none => s.start op

/-- A command word that asks for an operation. -/
def State.issue (s : State) (op : HostOp) : State := s.commandWrite (s.checkAndStart op)

/-- NOP: no effect, even while busy or halted (41_host_commands.md R152). -/
def execNop (s : State) : Host.Outcome State Fault Refusal := .next s

/-- INIT (43_card_init.md R173): its command word. -/
def execInit (s : State) : Host.Outcome State Fault Refusal := .next (s.issue .init)

/-- READ_BLOCK (44_card_block_ops.md R189): its command word. -/
def execReadBlock (s : State) : Host.Outcome State Fault Refusal := .next (s.issue .readBlock)

/-- WRITE_BLOCK (44_card_block_ops.md R207): its command word. -/
def execWriteBlock (s : State) : Host.Outcome State Fault Refusal := .next (s.issue .writeBlock)

/-- BEGIN_SESSION (44_card_block_ops.md R192): its command word. -/
def execBeginSession (s : State) : Host.Outcome State Fault Refusal := .next (s.issue .beginSession)

/-- WRITE_SEGMENT (44_card_block_ops.md R197): its command word. -/
def execWriteSegment (s : State) : Host.Outcome State Fault Refusal := .next (s.issue .writeSegment)

/-- END_SESSION (44_card_block_ops.md R201): its command word. -/
def execEndSession (s : State) : Host.Outcome State Fault Refusal := .next (s.issue .endSession)

/-- PRE_ERASE (44_card_block_ops.md R204): its command word. -/
def execPreErase (s : State) : Host.Outcome State Fault Refusal := .next (s.issue .preErase)

/-- A reserved opcode completes at once with E_BAD_OP, whichever of 0x8 to 0xF it is; while busy it is dropped, and in
a halted block it gives E_HALTED (41_host_commands.md R153). -/
def execReservedOp (_op : BitVec 4) (s : State) : Host.Outcome State Fault Refusal :=
  .next (s.commandWrite (s.completeNow .eBadOp))

end Sys2Proof.Machine
end

