-- ==== Sys2Proof/Machine/Producer.lean ====
section
/-!
DEFINITION. The producer (40_ring_buffer.md R119 to R127) and the sync marker (45_sample_marker.md), with the meanings
of its two events.
-/

namespace Sys2Proof.Machine

/-- Arming in every clk_p cycle (45_sample_marker.md R211): `if p_sync = 0: MARK_ARMED <- 1`. -/
def State.arm (s : State) (pSync : Bool) : State := if pSync then s else { s with markArmed := true }

/-- The gating of P_EVENT (40_ring_buffer.md R120): a frozen or disabled producer ignores the event; a producer whose
queue is not empty loses it (R121); else `accept` is done. -/
def State.gateEvent (s : State) (accept : State) : State :=
  if s.ovf || s.fatP || !s.penP then s
  else if s.pq.isEmpty then accept
  else s.setPLost

/-- The two ring bytes of a sample, in write order (20_memory.md R78). -/
def sampleBytes (lsbFirst : Bool) (v : BitVec 16) : List Byte :=
  if lsbFirst then [v.extractLsb' 0 8, v.extractLsb' 8 8] else [v.extractLsb' 8 8, v.extractLsb' 0 8]

/-- The eight ring bytes of a marker, in write order (30_encoding.md R109). -/
def markerBytes : List Byte := [0xFF#8, 0xFF#8, 0x00#8, 0x00#8, 0xFF#8, 0xFF#8, 0x00#8, 0x00#8]

/-- SAMPLE_EVENT (40_ring_buffer.md R123). -/
def State.sampleEvent (s : State) (v : BitVec 16) : State := { s with pq := sampleBytes s.par.lsbFirst v }

/-- SYNC_EVENT (45_sample_marker.md R212). -/
def State.syncEvent (s : State) : State :=
  if s.markArmed then { s with pq := markerBytes, markArmed := false } else s

/-- P_EVENT with p_sync = 0 (40_ring_buffer.md R120, R123). -/
def execSample (v : BitVec 16) (s : State) : Host.Outcome State Fault Refusal :=
  .next ((s.arm false).gateEvent ((s.arm false).sampleEvent v))

/-- P_EVENT with p_sync = 1 (40_ring_buffer.md R120, 45_sample_marker.md R212). -/
def execSync (s : State) : Host.Outcome State Fault Refusal := .next (s.gateEvent s.syncEvent)

/-- P_WRITE (40_ring_buffer.md R122); a frozen producer empties its queue and writes nothing (R126). With an empty
queue the step is not enabled. -/
def State.producerWrite (s : State) : State :=
  match s.pq with
  | [] => s
  | b :: rest =>
    if s.ovf || s.fatP then { s with pq := [] }
    else
      let t := ({ s with pq := rest }.memWrite s.head b).advanceHead
      if t.head = t.tailP then { t.setOvf with pq := [] } else t

end Sys2Proof.Machine
end

