-- ==== Sys2Proof/Machine/Dispatch.lean ====
section
/-! DEFINITION. The dispatch of an instruction to its meaning: one arm per constructor of Instr. -/

namespace Sys2Proof.Machine

def exec (i : Instr) (s : State) : Host.Outcome State Fault Refusal :=
  match i with
  | .nop => Sys2Proof.Machine.execNop s
  | .init => Sys2Proof.Machine.execInit s
  | .readBlock => Sys2Proof.Machine.execReadBlock s
  | .writeBlock => Sys2Proof.Machine.execWriteBlock s
  | .beginSession => Sys2Proof.Machine.execBeginSession s
  | .writeSegment => Sys2Proof.Machine.execWriteSegment s
  | .endSession => Sys2Proof.Machine.execEndSession s
  | .preErase => Sys2Proof.Machine.execPreErase s
  | .reservedOp op => Sys2Proof.Machine.execReservedOp op s
  | .cmd0 => Sys2Proof.Machine.execCmd0 s
  | .cmd8 => Sys2Proof.Machine.execCmd8 s
  | .cmd17 => Sys2Proof.Machine.execCmd17 s
  | .cmd24 => Sys2Proof.Machine.execCmd24 s
  | .cmd25 => Sys2Proof.Machine.execCmd25 s
  | .cmd55 => Sys2Proof.Machine.execCmd55 s
  | .cmd58 => Sys2Proof.Machine.execCmd58 s
  | .acmd41 => Sys2Proof.Machine.execAcmd41 s
  | .acmd23 => Sys2Proof.Machine.execAcmd23 s
  | .startBlock => Sys2Proof.Machine.execStartBlock s
  | .startMulti => Sys2Proof.Machine.execStartMulti s
  | .stopTran => Sys2Proof.Machine.execStopTran s
  | .drespAccepted tok => Sys2Proof.Machine.execDrespAccepted tok s
  | .drespCrcError tok => Sys2Proof.Machine.execDrespCrcError tok s
  | .drespWriteError tok => Sys2Proof.Machine.execDrespWriteError tok s
  | .busy => Sys2Proof.Machine.execBusy s
  | .idle => Sys2Proof.Machine.execIdle s
  | .sample v => Sys2Proof.Machine.execSample v s
  | .sync => Sys2Proof.Machine.execSync s

end Sys2Proof.Machine
end

