-- ==== Sys2Proof/Machine/HostPort.lean ====
section
/-!
DEFINITION. The host register port: the map of 10_state.md R40 and what reads and writes of each register do.
-/

namespace Sys2Proof.Machine

/-- `h_addr[1:0]` is ignored (20_memory.md R75). -/
def wordOffset (addr : BitVec 12) : BitVec 12 := addr &&& 0xFFC#12

/-- The offset of CMD (10_state.md R42). -/
def cmdOffset : BitVec 12 := 0x004#12

/-- Byte `i` of RDBUF. -/
def State.rdbufByte (s : State) (i : Nat) : Byte := s.rdbuf.getD i 0#8

/-- The RDBUF word whose first byte is `i` (10_state.md R65). -/
def State.rdbufWord (s : State) (i : Nat) : Word :=
  s.rdbufByte (i + 3) ++ s.rdbufByte (i + 2) ++ s.rdbufByte (i + 1) ++ s.rdbufByte i

/-- `CFG_SPI` (10_state.md R64). -/
def Cfg.spiWord (c : Cfg) : Word :=
  c.divSlow.setWidth 32 ||| (c.divFast.setWidth 32 <<< 8) ||| bitAt c.stopSkip 16

/-- What a host read returns: every register of 10_state.md R40; CMD and every reserved offset read 0.
A register is read live, at the value it has in that cycle, also while an operation runs (20_memory.md R74, R88). -/
def State.hostRead (s : State) (addr : BitVec 12) : Word :=
  let a := wordOffset addr
  if 0x200#12 ≤ a ∧ a ≤ 0x3FC#12 then s.rdbufWord (a.toNat - 0x200)
  else match a with
    | 0x000#12 => s.ctrlWord
    | 0x008#12 => s.arg
    | 0x00C#12 => s.statusWord
    | 0x010#12 => s.lastWord
    | 0x014#12 => s.ocr
    | 0x018#12 => s.r7
    | 0x01C#12 => s.headC
    | 0x020#12 => s.tail
    | 0x024#12 => s.pending
    | 0x028#12 => s.sesBlocks
    | 0x02C#12 => s.paramWord
    | 0x030#12 => s.rdcrc.setWidth 32
    | 0x040#12 => s.cfg.nIdle.setWidth 32
    | 0x044#12 => s.cfg.nNcr.setWidth 32
    | 0x048#12 => s.cfg.nCmd0.setWidth 32
    | 0x04C#12 => s.cfg.nCmd8.setWidth 32
    | 0x050#12 => s.cfg.nCmd58.setWidth 32
    | 0x054#12 => s.cfg.nCmd55.setWidth 32
    | 0x058#12 => s.cfg.nAcmdR1.setWidth 32
    | 0x05C#12 => s.cfg.nAcmd41.setWidth 32
    | 0x060#12 => s.cfg.nRdtok
    | 0x064#12 => s.cfg.nDresp.setWidth 32
    | 0x068#12 => s.cfg.nBusy
    | 0x06C#12 => s.cfg.nPre.setWidth 32
    | 0x070#12 => s.cfg.maxInit.setWidth 32
    | 0x074#12 => s.cfg.spiWord
    | _ => 0#32

/-- The least value a field holds is `lo`: a smaller written value is stored as `lo` (10_state.md R54 to R63). -/
def atLeast {w : Nat} (lo v : BitVec w) : BitVec w := if v < lo then lo else v

/-- A write of a `CFG_*` register (10_state.md R54 to R64): the field bits with their minimum, reserved bits ignored.
None for an offset that is no `CFG_*` register. -/
def Cfg.write (c : Cfg) (a : BitVec 12) (v : Word) : Option Cfg :=
  match a with
  | 0x040#12 => some { c with nIdle := atLeast 20#8 (v.extractLsb' 0 8) }
  | 0x044#12 => some { c with nNcr := atLeast 1#8 (v.extractLsb' 0 8) }
  | 0x048#12 => some { c with nCmd0 := atLeast 1#16 (v.extractLsb' 0 16) }
  | 0x04C#12 => some { c with nCmd8 := atLeast 1#16 (v.extractLsb' 0 16) }
  | 0x050#12 => some { c with nCmd58 := atLeast 1#16 (v.extractLsb' 0 16) }
  | 0x054#12 => some { c with nCmd55 := atLeast 1#16 (v.extractLsb' 0 16) }
  | 0x058#12 => some { c with nAcmdR1 := atLeast 1#16 (v.extractLsb' 0 16) }
  | 0x05C#12 => some { c with nAcmd41 := atLeast 1#16 (v.extractLsb' 0 16) }
  | 0x060#12 => some { c with nRdtok := atLeast 1#32 v }
  | 0x064#12 => some { c with nDresp := atLeast 1#16 (v.extractLsb' 0 16) }
  | 0x068#12 => some { c with nBusy := atLeast 1#32 v }
  | 0x06C#12 => some { c with nPre := atLeast 1#16 (v.extractLsb' 0 16) }
  | 0x070#12 => some { c with maxInit := atLeast 1#3 (v.extractLsb' 0 3) }
  | 0x074#12 =>
    some { c with divSlow := v.extractLsb' 0 8, divFast := v.extractLsb' 8 8, stopSkip := v.getLsbD 16 }
  | _ => none

/-- A write of CTRL (10_state.md R41). -/
def State.writeCtrl (s : State) (v : Word) : State :=
  let t := s.setProdEn (v.getLsbD 0)
  { t with ctrl := { t.ctrl with ieDone := v.getLsbD 1, ieReady := v.getLsbD 2, ieFatal := v.getLsbD 3 } }

/-- A write of STATUS: 1 clears DONE and CMD_LOST, every other bit ignores it (10_state.md R44). -/
def State.writeStatus (s : State) (v : Word) : State :=
  { s with done := s.done && !v.getLsbD 1, cmdLost := s.cmdLost && !v.getLsbD 3 }

/-- What a host write to a register other than CMD does. ARG and CFG_* ignore writes while BUSY = 1
(41_host_commands.md R156); read-only registers and reserved offsets ignore them always (10_state.md R40). -/
def State.hostWrite (s : State) (addr : BitVec 12) (v : Word) : State :=
  match wordOffset addr with
  | 0x000#12 => s.writeCtrl v
  | 0x008#12 => if s.isBusy then s else { s with arg := v }
  | 0x00C#12 => s.writeStatus v
  | a =>
    match s.cfg.write a v with
    | some c => if s.isBusy then s else { s with cfg := c }
    | none => s

end Sys2Proof.Machine
end

