-- ==== Sys2Proof/Machine/Synchronizers.lean ====
section
/-!
DEFINITION. The synchronizer step SYNC_X of each crossing (40_ring_buffer.md R136).
-/

namespace Sys2Proof.Machine

/-- A chain with its source's current value: the chain after one destination edge, or a torn capture. -/
def Chain.sync {α : Type} (c : Chain α) (bitsOf : α → Word) (cur : α) (k : Capture) : Option (Chain α) :=
  (c.capture bitsOf cur k).map c.shift

/-- SYNC_X. The sources are HEAD_G, TAIL_G, CTRL.PROD_EN, FATAL_C ≠ 0, OVF and P_LOST. -/
def State.sync (s : State) (x : Crossing) (k : Capture) : Option State :=
  match x with
  | .head => (s.headS.sync id s.headG k).map fun c => { s with headS := c }
  | .tail => (s.tailS.sync id s.tailG k).map fun c => { s with tailS := c }
  | .pen => (s.penS.sync bitWord s.ctrl.prodEn k).map fun c => { s with penS := c }
  | .fat => (s.fatS.sync bitWord s.fatalC.isSet k).map fun c => { s with fatS := c }
  | .ovf => (s.ovfS.sync bitWord s.ovf k).map fun c => { s with ovfS := c }
  | .plost => (s.plostS.sync bitWord s.pLost k).map fun c => { s with plostS := c }

/-- A synchronizer step as an outcome: a torn capture is the implementation's fault
(93_implementation_defined.md U18). -/
def State.syncStep (s : State) (x : Crossing) (k : Capture) : Host.Outcome State Fault Refusal :=
  match s.sync x k with
  | some t => .next t
  | none => .fault (.tornCapture x)

/-- Whether a crossing's destination registers are in clk_p (10_state.md R25, R27, R28) or in clk_c (R34, R35). -/
def crossingInP : Crossing → Bool
  | .head => false
  | .tail => true
  | .pen => true
  | .fat => true
  | .ovf => false
  | .plost => false

end Sys2Proof.Machine
end

