-- ==== Sys2Proof/Machine/Agents.lean ====
section
/-!
DEFINITION. The agents of 00_scope.md R16: how each takes one event, how a unit on a port is fetched, decoded and run,
and reset.
-/

namespace Sys2Proof.Machine

/-- Decode a word that is on a port in format `f`, and run the instruction. -/
def State.runWord (s : State) (f : Format) (w : Word) : Host.Outcome State Fault Refusal :=
  match decode f w with
  | .instr i => exec i s
  | .rejected _ => .refused .undecodableWord

/-! ### The host (20_memory.md R74, 30_encoding.md R115) -/

/-- A host write: a word written to CMD is a command word (10_state.md R42), every other write is the register's. -/
def State.hostWriteEvent (s : State) (addr : BitVec 12) (v : Word) : Host.Outcome State Fault Refusal :=
  if wordOffset addr = cmdOffset then s.runWord .hostop v else .next (s.hostWrite addr v)

/-- A host read: the value goes to `h_rdata`; no register changes (20_memory.md R74, R80). That `h_rdata` holds it until
the next read, where R74 is silent, is the model's: DESIGN CHOICE, log entry 30. -/
def State.hostReadEvent (s : State) (addr : BitVec 12) : State := { s with hRdata := s.hostRead addr }

/-- The value a name of the host program is bound to; an unbound name is 0. -/
def HostAgent.value (h : HostAgent) (name : Nat) : Word := (h.names.lookup name).getD 0#32

/-- The host agent goes to line `k`. -/
def State.hostGoto (s : State) (k : Nat) : State := { s with host := { s.host with line := k } }

/-- The host agent runs one line (30_encoding.md R115); past its last line it does nothing. -/
def State.hostLineEvent (s : State) : Host.Outcome State Fault Refusal :=
  match s.host.prog[s.host.line]? with
  | none => .next s
  | some (.wr addr v) => (s.hostGoto (s.host.line + 1)).hostWriteEvent addr v
  | some (.rd addr name) =>
    let t := (s.hostGoto (s.host.line + 1)).hostReadEvent addr
    .next { t with host := { t.host with names := (name, t.hRdata) :: t.host.names } }
  | some (.bnz name mask label) =>
    .next (s.hostGoto (if s.host.value name &&& mask ≠ 0#32 then label else s.host.line + 1))
  | some (.bz name mask label) =>
    .next (s.hostGoto (if s.host.value name &&& mask = 0#32 then label else s.host.line + 1))

/-! ### The producer's port (45_sample_marker.md R216) -/

/-- A clk_p cycle with p_valid = 1 (30_encoding.md R110). -/
def State.producerPort (s : State) (w : BitVec 17) : Host.Outcome State Fault Refusal :=
  s.runWord .pevent (w.setWidth 32)

/-! ### The engine -/

/-- The byte the engine's next event sends, as a word. -/
def State.sentWord (s : State) : Word := (s.nextTx.getD idleByte).setWidth 32

/-- The instruction a received byte is, read in the format the engine's position expects; the idle byte is one
everywhere. Other bytes (an R1, response and data bytes) are no row of the opcode table. -/
def receivedInstr (f : Format) (b : Byte) : Option Instr :=
  match decode f (b.setWidth 32) with
  | .instr i => some i
  | .rejected _ => (decode .idle (b.setWidth 32)).toOption

/-- One event of the engine. -/
def State.engineEvent (s : State) : Host.Outcome State Fault Refusal :=
  match s.pos.port with
  | .internal => .next s.internal
  | .send f => s.runWord f s.sentWord
  | .receive f =>
    match receivedInstr f s.cardAnswer with
    | some i => exec i s.answerTaken
    | none => .next (s.answerTaken.exchange s.cardAnswer)

/-! ### Reset (70_reset_and_hazards.md R239, R240) -/

/-- rst_n is asserted: every register of both domains takes its reset value at once. The ring memory and RDBUF keep
what they hold, and what is outside the block (host, card, sample source, interleaving) goes on. -/
def State.assertReset (s : State) : State :=
  { State.resetWith s.par with
    agenda := s.agenda, miso := s.miso, draws := s.draws, host := s.host, mem := s.mem, rdbuf := s.rdbuf,
    rstP := true, rstC := true }

/-! ### One event -/

/-- The event is a step of a domain that is still held in reset, whose registers hold their reset values
(70_reset_and_hazards.md R239). -/
def Event.held (e : Event) (s : State) : Bool :=
  match e with
  | .hostRead _ => s.rstC
  | .hostWrite _ _ => s.rstC
  | .hostLine => s.rstC
  | .producerEvent _ => s.rstP
  | .producerCycle _ => s.rstP
  | .producerWrite => s.rstP
  | .engine => s.rstC
  | .sync x _ => if crossingInP x then s.rstP else s.rstC
  | .blink => s.rstC
  | .resetAssert => false
  | .resetReleaseP => false
  | .resetReleaseC => false

/-- What an event does when its domain runs. -/
def State.takeEvent (s : State) (e : Event) : Host.Outcome State Fault Refusal :=
  match e with
  | .hostRead addr => .next (s.hostReadEvent addr)
  | .hostWrite addr v => s.hostWriteEvent addr v
  | .hostLine => s.hostLineEvent
  | .producerEvent w => s.producerPort w
  | .producerCycle pSync => .next (s.arm pSync)
  | .producerWrite => .next s.producerWrite
  | .engine => s.engineEvent
  | .sync x k => s.syncStep x k
  | .blink => .next s.blinkEdge
  | .resetAssert => .next s.assertReset
  | .resetReleaseP => .next { s with rstP := false }
  | .resetReleaseC => .next { s with rstC := false }

/-- One event. -/
def State.runEvent (s : State) (e : Event) : Host.Outcome State Fault Refusal :=
  if Event.held e s then .next s else s.takeEvent e

/-- The next event: the agenda's, else a free one (00_scope.md R16). -/
def State.nextEvent (s : State) : Event :=
  match s.agenda with
  | e :: _ => e
  | [] => Config.nextEvent s.draws

/-- The state after the next event was chosen. -/
def State.eventTaken (s : State) : State :=
  match s.agenda with
  | _ :: rest => { s with agenda := rest }
  | [] => { s with draws := s.draws + 1 }

/-! ### Placing an instruction where the machine fetches -/

/-- Where the engine must be for a card-port instruction to be its next exchange. -/
def fetchPosition : Instr → Option Pos
  | .nop => none
  | .init => none
  | .readBlock => none
  | .writeBlock => none
  | .beginSession => none
  | .writeSegment => none
  | .endSession => none
  | .preErase => none
  | .reservedOp _ => none
  | .cmd0 => some (.command (.pass (.cmd0 1 0)))
  | .cmd8 => some (.command (.pass (.cmd8 1 0)))
  | .cmd17 => some (.command .cmd17)
  | .cmd24 => some (.command .cmd24)
  | .cmd25 => some (.command .cmd25)
  | .cmd55 => some (.command (.pass (.cmd55Init 1 0 0)))
  | .cmd58 => some (.command (.pass (.cmd58Pre 1 0)))
  | .acmd41 => some (.command (.pass (.acmd41 1 0)))
  | .acmd23 => some (.command (.pass (.acmd23 0)))
  | .startBlock => some (.tokenPoll 1)
  | .startMulti => some .tokenSegment
  | .stopTran => some .tokenStop
  | .drespAccepted _ => some (.dresp .block 1)
  | .drespCrcError _ => some (.dresp .block 1)
  | .drespWriteError _ => some (.dresp .block 1)
  | .busy => some (.busyPoll .block 1)
  | .idle => some (.poll .cmd17 1)
  | .sample _ => none
  | .sync => none

/-- The engine is at `p`, about to clock the byte `b`: a byte the card sends is the card's next answer. -/
def State.placeByte (s : State) (p : Pos) (b : Byte) : State :=
  match p.port with
  | .receive _ =>
    { s with pos := p, sdCsN := false, rstC := false, agenda := .engine :: s.agenda, miso := b :: s.miso }
  | .internal => { s with pos := p, sdCsN := false, rstC := false, agenda := .engine :: s.agenda }
  | .send _ => { s with pos := p, sdCsN := false, rstC := false, agenda := .engine :: s.agenda }

/-- Instruction `i`, whose word is `w`, is what the next step runs: a command word is the next host write, a producer
word the next producer event, and a card-port byte the next exchange of an engine that is where such a byte is
exchanged. -/
def State.place (s : State) (i : Instr) (w : Word) : State :=
  match fetchPosition i with
  | some p => s.placeByte p (w.extractLsb' 0 8)
  | none =>
    match i.format with
    | .pevent => { s with rstP := false, agenda := .producerEvent (w.extractLsb' 0 17) :: s.agenda }
    | .hostop => { s with rstC := false, agenda := .hostWrite cmdOffset w :: s.agenda }
    | .cardcmd => s
    | .token => s
    | .dresp => s
    | .busy => s
    | .idle => s

end Sys2Proof.Machine
end

