-- ==== Sys2Proof/Machine/Step.lean ====
section
/-! DEFINITION. One step of the machine, and how an instruction is placed where the next step fetches it. -/

namespace Sys2Proof.Machine

/-- One step: the next event. A build whose parameters are out of range is refused (60_exceptions.md R238). -/
def step (s : State) : Host.Outcome State Fault Refusal :=
  if s.par.legal then s.eventTaken.runEvent s.nextEvent else .refused .parameterOutOfRange

/-- `s` with the instruction of a table word placed so that the next step runs it; a word that is no instruction
places nothing. -/
def State.withFetchWord (s : State) (nbits w : Nat) : State :=
  match decodeTableWord nbits w with
  | some i => s.place i (BitVec.ofNat 32 w)
  | none => s

end Sys2Proof.Machine
end

