-- ==== Sys2Proof/Safety.lean ====
section
/-!
DEFINITION. What a good state is: three invariants that every step keeps (data, control, ring), and the bound on the
byte exchanges an operation still makes. Statements about every state take one of these as a premise where an
unreachable state would break them.
-/

namespace Sys2Proof.Machine

/-! ### Data -/

/-- Every ceiling is at least its minimum (10_state.md R54 to R63). -/
structure Cfg.AtLeastMinimum (c : Cfg) : Prop where
  nIdle : 20#8 ≤ c.nIdle
  nNcr : 1#8 ≤ c.nNcr
  nCmd0 : 1#16 ≤ c.nCmd0
  nCmd8 : 1#16 ≤ c.nCmd8
  nCmd58 : 1#16 ≤ c.nCmd58
  nCmd55 : 1#16 ≤ c.nCmd55
  nAcmdR1 : 1#16 ≤ c.nAcmdR1
  nAcmd41 : 1#16 ≤ c.nAcmd41
  nRdtok : 1#32 ≤ c.nRdtok
  nDresp : 1#16 ≤ c.nDresp
  nBusy : 1#32 ≤ c.nBusy
  nPre : 1#16 ≤ c.nPre
  maxInit : 1#3 ≤ c.maxInit

/-- The chain of a sticky flag: no stage is 1 before the stages and the flag in front of it (40_ring_buffer.md R140),
and a value remembered from before the flag's change is 0, with every stage still 0. -/
structure Chain.Sticky (c : Chain Bool) (source : Bool) : Prop where
  order : (source :: c.stages).Pairwise (fun a b => b = true → a = true)
  old : ∀ v, c.old = some v → v = false ∧ ∀ b ∈ c.stages, b = false

/-- A position's own counters stay in their ranges. -/
def Pos.inRange : Pos → Prop
  | .idle => True
  | .initBegin => True
  | .initDeselect _ => True
  | .initIdle _ _ => True
  | .select _ => True
  | .command _ => True
  | .frame _ i => 1 ≤ i ∧ i ≤ 5
  | .poll _ _ => True
  | .resp _ got _ => got ≤ 3
  | .deselect _ => True
  | .trail _ => True
  | .tokenPoll _ => True
  | .readData i => i < 512
  | .readCrcHigh => True
  | .readCrcLow _ => True
  | .gapSession => True
  | .gapBlock => True
  | .tokenBlock => True
  | .tokenSegment => True
  | .memRead _ i => i < 512
  | .payload _ i _ => i < 512
  | .filler _ _ => True
  | .dresp _ _ => True
  | .busyPoll _ _ => True
  | .tokenStop => True
  | .stuff => True

/-- The read request that a position has pending: `TAIL +_N i` while the engine waits for payload byte `i`
(20_memory.md R71), none elsewhere. -/
def State.requestAt (s : State) : Pos → Option Word
  | .memRead _ i => some (addMod s.par.n s.tail (BitVec.ofNat 32 i))
  | _ => none

/-- The registers hold values of their widths, gray copies agree with their cursors, memory keeps its canonical form,
the ports idle between events. -/
structure DataInv (s : State) : Prop where
  legal : s.par.legal = true
  memory : Memory.wf s.mem
  offsets : ∀ c ∈ s.mem, c.1 < s.par.cap
  head : s.head.toNat < s.par.cap
  headG : s.headG = bin2gray s.head
  tailB : s.tailB.toNat < 2 ^ s.par.tb
  tailG : s.tailG = bin2gray s.tailB
  headS : s.headS.stages.length = s.par.s
  tailS : s.tailS.stages.length = s.par.s
  penS : s.penS.stages.length = s.par.s
  fatS : s.fatS.stages.length = s.par.s
  ovfS : s.ovfS.stages.length = s.par.s
  plostS : s.plostS.stages.length = s.par.s
  headView : ∀ g ∈ s.headS.stages, g.toNat < s.par.cap
  headOld : ∀ g, s.headS.old = some g → g.toNat < s.par.cap
  tailView : ∀ g ∈ s.tailS.stages, g.toNat < 2 ^ s.par.tb
  tailOld : ∀ g, s.tailS.old = some g → g.toNat < 2 ^ s.par.tb
  fatSticky : s.fatS.Sticky s.fatalC.isSet
  ovfSticky : s.ovfS.Sticky s.ovf
  plostSticky : s.plostS.Sticky s.pLost
  queue : s.pq.length ≤ 8
  frozenQueue : s.ovf = true → s.pq = []
  ceilings : s.cfg.AtLeastMinimum
  buffer : s.rdbuf.length = 512
  mosi : s.sdMosi = true
  sclk : s.sdSclk = false
  mport : s.mport = MemPort.idle
  counters : s.pos.inRange
  request : s.memReq = s.requestAt s.pos
  blink : s.blink < 8

/-! ### Control -/

/-- INIT's passes, against PRE_ERASE's. -/
def Pass.ofInit : Pass → Bool
  | .cmd0 _ _ => true
  | .cmd8 _ _ => true
  | .cmd58Pre _ _ => true
  | .cmd55Init _ _ _ => true
  | .acmd41 _ _ => true
  | .cmd58Post _ _ => true
  | .cmd55Erase _ _ => false
  | .acmd23 _ => false

/-- `SESSION` while a pass runs. -/
def Pass.session (p : Pass) : Session := if p.ofInit then .initializing else .ready

/-- `SESSION` during an exchange. -/
def Site.session : Site → Session
  | .pass p => p.session
  | .cmd17 => .ready
  | .cmd24 => .ready
  | .cmd25 => .ready

/-- `SESSION` during an epilogue. -/
def After.session : After → Session
  | .pass p _ => p.session
  | .finish _ => .ready
  | .leave _ => .sessionOpen

/-- `SESSION` while a block is written. -/
def WriteKind.session : WriteKind → Session
  | .block => .ready
  | .segment => .sessionOpen

/-- `SESSION` during a card-busy poll. -/
def BusyKind.session : BusyKind → Session
  | .block => .ready
  | .segment => .sessionOpen
  | .stop => .sessionOpen

/-- What `SESSION` is at a position (43_card_init.md R173, 41_host_commands.md R148, 44_card_block_ops.md R195). An idle
engine and INIT's first line leave more than one value open. -/
def Pos.session : Pos → Option Session
  | .idle => none
  | .initBegin => none
  | .initDeselect _ => some .initializing
  | .initIdle _ _ => some .initializing
  | .select x => some x.session
  | .command x => some x.session
  | .frame x _ => some x.session
  | .poll x _ => some x.session
  | .resp p _ _ => some p.session
  | .deselect a => some a.session
  | .trail a => some a.session
  | .tokenPoll _ => some .ready
  | .readData _ => some .ready
  | .readCrcHigh => some .ready
  | .readCrcLow _ => some .ready
  | .gapSession => some .ready
  | .gapBlock => some .ready
  | .tokenBlock => some .ready
  | .tokenSegment => some .sessionOpen
  | .memRead w _ => some w.session
  | .payload w _ _ => some w.session
  | .filler w _ => some w.session
  | .dresp w _ => some w.session
  | .busyPoll k _ => some k.session
  | .tokenStop => some .sessionOpen
  | .stuff => some .sessionOpen

/-- The value of `sd_cs_n` at a position of a running operation (42_card_transport.md R168, R169). -/
def Pos.csN : Pos → Option Bool
  | .idle => none
  | .initBegin => some true
  | .initDeselect _ => some true
  | .initIdle _ _ => some true
  | .select _ => some true
  | .command _ => some false
  | .frame _ _ => some false
  | .poll _ _ => some false
  | .resp _ _ _ => some false
  | .deselect _ => some false
  | .trail _ => some true
  | .tokenPoll _ => some false
  | .readData _ => some false
  | .readCrcHigh => some false
  | .readCrcLow _ => some false
  | .gapSession => some false
  | .gapBlock => some false
  | .tokenBlock => some false
  | .tokenSegment => some false
  | .memRead _ _ => some false
  | .payload _ _ _ => some false
  | .filler _ _ => some false
  | .dresp _ _ => some false
  | .busyPoll _ _ => some false
  | .tokenStop => some false
  | .stuff => some false

/-- `FAST` during a pass: slow up to the ACMD41 loop, fast after it, and in PRE_ERASE (43_card_init.md R183). -/
def Pass.fast : Pass → Bool
  | .cmd0 _ _ => false
  | .cmd8 _ _ => false
  | .cmd58Pre _ _ => false
  | .cmd55Init _ _ _ => false
  | .acmd41 _ _ => false
  | .cmd58Post _ _ => true
  | .cmd55Erase _ _ => true
  | .acmd23 _ => true

/-- The pass a position is in, if any. -/
def Pos.pass : Pos → Option Pass
  | .select (.pass p) => some p
  | .command (.pass p) => some p
  | .frame (.pass p) _ => some p
  | .poll (.pass p) _ => some p
  | .resp p _ _ => some p
  | .deselect (.pass p _) => some p
  | .trail (.pass p _) => some p
  | _ => none

/-- INIT's attempt number `k` in a pass. -/
def Pass.attempt : Pass → Option Nat
  | .cmd0 att _ => some att
  | .cmd8 att _ => some att
  | .cmd58Pre att _ => some att
  | .cmd55Init att _ _ => some att
  | .acmd41 att _ => some att
  | .cmd58Post att _ => some att
  | .cmd55Erase _ _ => none
  | .acmd23 _ => none

/-- INIT's attempt number `k` at a position. -/
def Pos.attempt : Pos → Option Nat
  | .initDeselect att => some att
  | .initIdle att _ => some att
  | p => p.pass.bind Pass.attempt

/-- SESSION, FAST, chip-select, DONE and FATAL_C fit the engine's position. -/
structure ControlInv (s : State) : Prop where
  session : ∀ v, s.pos.session = some v → s.session = v
  idleSession : s.pos = .idle → s.session ≠ .initializing
  beginSession : s.pos = .initBegin → s.session = .notInit ∨ s.session = .ready
  chipSelect : ∀ v, s.pos.csN = some v → s.sdCsN = v
  idleSelected : s.pos = .idle → s.sdCsN = false → s.session = .sessionOpen
  idleOpen : s.pos = .idle → s.session = .sessionOpen → s.halted = false → s.sdCsN = false
  passFast : ∀ p, s.pos.pass = some p → s.fast = p.fast
  slowIdleClock : ∀ att left, s.pos = .initIdle att left → s.fast = false
  readyFast : s.session = .ready ∨ s.session = .sessionOpen → s.fast = true
  attempts : ∀ k, s.pos.attempt = some k →
    s.attempts = BitVec.ofNat 3 k ∧ 1 ≤ k ∧ k ≤ s.cfg.maxInit.toNat
  doneIdle : s.done = true → s.pos = .idle
  fatalIdle : s.fatalC ≠ .none → s.pos = .idle

/-! ### The ring (40_ring_buffer.md R132, R137 to R139, 20_memory.md R83 to R85) -/

/-- The running operation has found a whole block available and has not released it yet. -/
def Pos.holdsBlock : Pos → Bool
  | .select .cmd24 => true
  | .command .cmd24 => true
  | .frame .cmd24 _ => true
  | .poll .cmd24 _ => true
  | .gapBlock => true
  | .tokenBlock => true
  | .tokenSegment => true
  | .memRead _ _ => true
  | .payload _ _ _ => true
  | .filler _ _ => true
  | .dresp _ _ => true
  | _ => false

/-- `H*`: the P_WRITEs since reset (40_ring_buffer.md R137). -/
def State.written (s : State) : Nat := s.ringLog.length

/-- `b_j` of the producer's byte stream (20_memory.md R85). -/
def State.streamByte (s : State) (j : Nat) : Option Byte := s.ringLog.reverse[j]?

/-- The unbounded counts behind the pointers: `hs` and `ts` are the counts `H'` and `T'` behind the stages of HEAD_S and
TAIL_S, first stage first. -/
structure RingCounts (s : State) (hs ts : List Nat) : Prop where
  head : s.head.toNat = s.written % s.par.cap
  headStages : s.headS.stages = hs.map fun h => bin2gray (BitVec.ofNat 32 (h % s.par.cap))
  headOrder : (s.written :: hs).Pairwise fun a b => b ≤ a
  headOld : ∀ g, s.headS.old = some g →
    g = bin2gray (BitVec.ofNat 32 ((s.written - 1) % s.par.cap)) ∧ ∀ h ∈ hs, h < s.written
  tail : s.tailB.toNat = s.freed % 2 ^ s.par.tb
  tailStages : s.tailS.stages = ts.map fun t => bin2gray (BitVec.ofNat 32 (t % 2 ^ s.par.tb))
  tailOrder : (s.freed :: ts).Pairwise fun a b => b ≤ a
  tailOld : ∀ g, s.tailS.old = some g →
    g = bin2gray (BitVec.ofNat 32 ((s.freed - 1) % 2 ^ s.par.tb)) ∧ ∀ t ∈ ts, t < s.freed
  released : 512 * s.freed ≤ hs.getLastD 0
  held : s.pos.holdsBlock = true → 512 * (s.freed + 1) ≤ hs.getLastD 0
  room : s.written ≤ 512 * ts.getLastD 0 + s.par.cap
  open_room : s.ovf = false → s.written < 512 * ts.getLastD 0 + s.par.cap
  contents : ∀ j, j < s.written → s.written ≤ j + s.par.cap →
    Memory.read s.mem (j % s.par.cap) = s.streamByte j

/-- Such counts exist. -/
def RingInv (s : State) : Prop := ∃ hs ts, RingCounts s hs ts

/-! ### The exchanges an operation still makes (70_reset_and_hazards.md R254) -/

/-- `E = 6 + N_NCR + 1`, one plain exchange. -/
def Cfg.plainExchange (c : Cfg) : Nat := 6 + c.nNcr.toNat + 1

/-- An ACMD exchange, `6 + N_ACMDR1 + 1`. -/
def Cfg.acmdExchange (c : Cfg) : Nat := 6 + c.nAcmdR1.toNat + 1

/-- One outer iteration of a CMD55 + ACMD loop. -/
def Cfg.acmdLoop (c : Cfg) : Nat := c.nCmd55.toNat * c.plainExchange + c.acmdExchange

/-- A step whose success reads four more bytes, `n` passes of it. -/
def Cfg.responsePasses (c : Cfg) (n : Nat) : Nat := n * (c.plainExchange + 4)

/-- One attempt of INIT. -/
def Cfg.attempt (c : Cfg) : Nat :=
  c.nIdle.toNat + c.nCmd0.toNat * c.plainExchange + c.responsePasses c.nCmd8.toNat +
    c.responsePasses c.nCmd58.toNat + c.nAcmd41.toNat * c.acmdLoop + c.responsePasses c.nCmd58.toNat

/-- The attempts that may follow attempt `att`. -/
def Cfg.laterAttempts (c : Cfg) (att : Nat) : Nat := (c.maxInit.toNat - att) * c.attempt

/-- The most XFERs after a pass has ended, whether it succeeded or not. -/
def Cfg.afterPass (c : Cfg) : Pass → Nat
  | .cmd0 att left =>
    left * c.plainExchange + c.responsePasses c.nCmd8.toNat + c.responsePasses c.nCmd58.toNat +
      c.nAcmd41.toNat * c.acmdLoop + c.responsePasses c.nCmd58.toNat + c.laterAttempts att
  | .cmd8 att left =>
    c.responsePasses left + c.responsePasses c.nCmd58.toNat +
      c.nAcmd41.toNat * c.acmdLoop + c.responsePasses c.nCmd58.toNat + c.laterAttempts att
  | .cmd58Pre att left =>
    c.responsePasses left + c.nAcmd41.toNat * c.acmdLoop + c.responsePasses c.nCmd58.toNat + c.laterAttempts att
  | .cmd55Init att outer left =>
    left * c.plainExchange + c.acmdExchange + outer * c.acmdLoop + c.responsePasses c.nCmd58.toNat +
      c.laterAttempts att
  | .acmd41 att outer => outer * c.acmdLoop + c.responsePasses c.nCmd58.toNat + c.laterAttempts att
  | .cmd58Post att left => c.responsePasses left + c.laterAttempts att
  | .cmd55Erase outer left => left * c.plainExchange + c.acmdExchange + outer * c.acmdLoop
  | .acmd23 outer => outer * c.acmdLoop

/-- The payload, filler and answer of a block write after its token, with the busy poll and the trailing byte. -/
def Cfg.blockTail (c : Cfg) : Nat := 512 + 2 + c.nDresp.toNat + c.nBusy.toNat + 1

/-- The most XFERs after an exchange's R1. -/
def Cfg.afterR1 (c : Cfg) : Site → Nat
  | .pass p => (if p.hasResponse then 4 else 0) + 1 + c.afterPass p
  | .cmd17 => c.nRdtok.toNat + 512 + 2 + 1
  | .cmd24 => 1 + 1 + c.blockTail
  | .cmd25 => 1

/-- The ceiling of an exchange's response poll. -/
def Cfg.pollCeiling (c : Cfg) (x : Site) : Nat := if x.pollB7 then c.nAcmdR1.toNat else c.nNcr.toNat

/-- The most XFERs after an epilogue. -/
def Cfg.afterEpilogue (c : Cfg) : After → Nat
  | .pass p _ => c.afterPass p
  | .finish _ => 0
  | .leave _ => 0

/-- The most XFERs the running operation still makes. -/
def Cfg.xfersLeft (c : Cfg) : Pos → Nat
  | .idle => 0
  | .initBegin => c.maxInit.toNat * c.attempt
  | .initDeselect att => (c.maxInit.toNat + 1 - att) * c.attempt
  | .initIdle att left =>
    (left + 1) + c.nCmd0.toNat * c.plainExchange + c.responsePasses c.nCmd8.toNat +
      c.responsePasses c.nCmd58.toNat + c.nAcmd41.toNat * c.acmdLoop + c.responsePasses c.nCmd58.toNat +
      c.laterAttempts att
  | .select x => 6 + c.pollCeiling x + c.afterR1 x
  | .command x => 6 + c.pollCeiling x + c.afterR1 x
  | .frame x i => (6 - i) + c.pollCeiling x + c.afterR1 x
  | .poll x left => (left + 1) + c.afterR1 x
  | .resp p got _ => (4 - got) + 1 + c.afterPass p
  | .deselect a => 1 + c.afterEpilogue a
  | .trail a => 1 + c.afterEpilogue a
  | .tokenPoll left => (left + 1) + 512 + 2 + 1
  | .readData i => (512 - i) + 2 + 1
  | .readCrcHigh => 2 + 1
  | .readCrcLow _ => 1 + 1
  | .gapSession => 1
  | .gapBlock => 1 + 1 + c.blockTail
  | .tokenBlock => 1 + c.blockTail
  | .tokenSegment => 1 + c.blockTail
  | .memRead _ i => (512 - i) + 2 + c.nDresp.toNat + c.nBusy.toNat + 1
  | .payload _ i _ => (512 - i) + 2 + c.nDresp.toNat + c.nBusy.toNat + 1
  | .filler _ left => (left + 1) + c.nDresp.toNat + c.nBusy.toNat + 1
  | .dresp _ left => (left + 1) + c.nBusy.toNat + 1
  | .busyPoll _ left => (left + 1) + 1
  | .tokenStop => 1 + (if c.stopSkip then 1 else 0) + c.nBusy.toNat + 1
  | .stuff => 1 + c.nBusy.toNat + 1

/-- The bound of 70_reset_and_hazards.md R254 for each operation. -/
def Cfg.operationBound (c : Cfg) : HostOp → Nat
  | .init =>
    c.maxInit.toNat * (c.nIdle.toNat + c.nCmd0.toNat * (6 + c.nNcr.toNat + 1) +
      c.nCmd8.toNat * (6 + c.nNcr.toNat + 1 + 4) + 2 * c.nCmd58.toNat * (6 + c.nNcr.toNat + 1 + 4) +
      c.nAcmd41.toNat * (c.nCmd55.toNat * (6 + c.nNcr.toNat + 1) + 6 + c.nAcmdR1.toNat + 1))
  | .readBlock => 6 + c.nNcr.toNat + c.nRdtok.toNat + 512 + 2 + 1
  | .writeBlock => 6 + c.nNcr.toNat + 1 + 1 + 512 + 2 + c.nDresp.toNat + c.nBusy.toNat + 1
  | .beginSession => 6 + c.nNcr.toNat + 1
  | .writeSegment => 1 + 512 + 2 + c.nDresp.toNat + c.nBusy.toNat + 1
  | .endSession => 1 + (if c.stopSkip then 1 else 0) + c.nBusy.toNat + 1
  | .preErase => c.nPre.toNat * (c.nCmd55.toNat * (6 + c.nNcr.toNat + 1) + 7 + c.nAcmdR1.toNat)

/-- The XFERs on a card-port trace. -/
def xferCount (trace : List CardEvent) : Nat :=
  trace.countP fun e =>
    match e with
    | .cs _ => false
    | .xfer _ _ _ => true

/-- The non-XFER engine events that come before the next XFER. -/
def Pos.eventsBeforeXfer : Pos → Nat
  | .initBegin => 2
  | .initDeselect _ => 1
  | .select _ => 1
  | .deselect _ => 1
  | .memRead _ _ => 1
  | _ => 0

/-- How many engine events the running operation still makes at most: between two XFERs at most two others. -/
def State.rank (s : State) : Nat := 3 * s.cfg.xfersLeft s.pos + s.pos.eventsBeforeXfer

/-- `k` events of the engine with no other agent between them, stopping at the first fault or refusal. -/
def State.engineRun : Nat → State → Host.Outcome State Fault Refusal
  | 0, s => .next s
  | k + 1, s =>
    match s.engineEvent with
    | .next t => State.engineRun k t
    | .fault f => .fault f
    | .refused r => .refused r

/-! ### Fairness (70_reset_and_hazards.md R255) -/

/-- A run of any agents' events that meets R255's premises: (a) both clocks keep running, so the engine, the ring's
writer and each synchronizer take infinitely many steps; (b) the arbiter serves a pending read in the first clk_p cycle
in which the producer has no byte to write, so no cycle of the sample port passes in between; (c) such cycles come
infinitely often. A step of the model with this event on its agenda is the event. No statement but those that name
`FairRun` assumes any of it (log entry 28). -/
structure FairRun (event : Nat → Event) (run : Nat → State) : Prop where
  events : ∀ k, (run k).runEvent (event k) = .next (run (k + 1))
  engine : ∀ k, ∃ j, k ≤ j ∧ event j = .engine ∧ (run j).rstC = false
  writer : ∀ k, ∃ j, k ≤ j ∧ event j = .producerWrite ∧ (run j).rstP = false
  synchronizers : ∀ k x, ∃ j c, k ≤ j ∧ event j = .sync x c ∧ Event.held (event j) (run j) = false
  arbiter : ∀ k, (run k).unservedRead ≠ none → (run k).pq = [] → (run k).rstP = false →
    (∀ w, event k ≠ .producerEvent w) ∧ ∀ p, event k ≠ .producerCycle p
  source : ∀ k, ∃ j, k ≤ j ∧ (run j).pq = [] ∧ (run j).rstP = false

/-! ### Words the statements use -/

/-- The command word that asks for an operation (30_encoding.md R105). -/
def HostOp.instr : HostOp → Instr
  | .init => .init
  | .readBlock => .readBlock
  | .writeBlock => .writeBlock
  | .beginSession => .beginSession
  | .writeSegment => .writeSegment
  | .endSession => .endSession
  | .preErase => .preErase

/-- The first frame byte of a card command, as an instruction (30_encoding.md R93). -/
def CardCmd.instr : CardCmd → Instr
  | .cmd0 => .cmd0
  | .cmd8 => .cmd8
  | .cmd17 => .cmd17
  | .cmd24 => .cmd24
  | .cmd25 => .cmd25
  | .cmd55 => .cmd55
  | .cmd58 => .cmd58
  | .acmd41 => .acmd41
  | .acmd23 => .acmd23

end Sys2Proof.Machine

namespace Sys2Proof

/-- An event of clk_p other than reset: the sample port, the ring write, and the synchronizers into clk_p. -/
def Event.inProducerDomain : Event → Bool
  | .hostRead _ => false
  | .hostWrite _ _ => false
  | .hostLine => false
  | .producerEvent _ => true
  | .producerCycle _ => true
  | .producerWrite => true
  | .engine => false
  | .sync x _ => Machine.crossingInP x
  | .blink => false
  | .resetAssert => false
  | .resetReleaseP => false
  | .resetReleaseC => false

/-- An event of clk_c other than reset: the host, the engine, the indicators, and the synchronizers into clk_c. -/
def Event.inConsumerDomain : Event → Bool
  | .hostRead _ => true
  | .hostWrite _ _ => true
  | .hostLine => true
  | .producerEvent _ => false
  | .producerCycle _ => false
  | .producerWrite => false
  | .engine => true
  | .sync x _ => !Machine.crossingInP x
  | .blink => true
  | .resetAssert => false
  | .resetReleaseP => false
  | .resetReleaseC => false

end Sys2Proof
end

