-- ==== Sys2Proof/Certificates/Slice0/Obligations.lean ====
section
/-!
DEFINITION. The statements for the provers. Each docstring names the rules of spec/ it formalises, and where a clause is the
model's own choice, the log entry. Where a statement gives a whole next state of an event that is no host read, that
`h_rdata` keeps its value in it is the model's choice too, log entry 30.
-/

section ObligationStatements

open Sys2Proof Sys2Proof.Machine

/-! ### Encodings -/

/-- Words written out from the tables of R93, R100 to R103, R105 and R110 decode to what they stand for, at least one for
each format; an index the engine never sends, a byte that starts no frame and undefined tokens are rejected by name. -/
def Obligations.SpecWordsDecode : Prop :=
  decode .hostop 0x00000010#32 = .instr .nop ∧
  decode .hostop 0xABCDEF05#32 = .instr .writeSegment ∧
  decode .hostop 0x0000000F#32 = .instr (.reservedOp 0xF#4) ∧
  decode .cardcmd 0x51#32 = .instr .cmd17 ∧
  decode .cardcmd 0x69#32 = .instr .acmd41 ∧
  decode .cardcmd 0x4A#32 = .rejected .commandNeverSent ∧
  decode .cardcmd 0x91#32 = .rejected .notACommandByte ∧
  decode .token 0xFC#32 = .instr .startMulti ∧
  decode .token 0xFF#32 = .rejected .notADataToken ∧
  decode .dresp 0xE5#32 = .instr (.drespAccepted 0xE5#8) ∧
  decode .dresp 0x0B#32 = .instr (.drespCrcError 0x0B#8) ∧
  decode .dresp 0x07#32 = .rejected .undefinedDataResponse ∧
  decode .busy 0x00#32 = .instr .busy ∧
  decode .idle 0xFF#32 = .instr .idle ∧
  decode .pevent 0x01234#32 = .instr (.sample 0x1234#16) ∧
  decode .pevent 0x1FFFF#32 = .instr .sync ∧
  decode .pevent 0x20000#32 = .rejected .widerThanAProducerWord

/-- Decoding the encoding of any well-formed instruction gives it back, with every operand. -/
def Obligations.DecodeEncode : Prop :=
  ∀ i : Instr, i.wf = true → decode i.format (encode i) = .instr i

/-- The other direction: what decodes is well-formed and of that format, and its encoding is the word on every bit the
format does not ignore (R105: bits 31:4 of a command word; R110: p_sample of a SYNC event). -/
def Obligations.EncodeDecode : Prop :=
  ∀ (f : Format) (w : Word) (i : Instr), decode f w = .instr i →
    i.wf = true ∧ i.format = f ∧
    encode i =
      (match f with
       | .hostop => w &&& 0xF#32
       | .pevent => if w.getLsbD 16 then 0x10000#32 else w
       | _ => w)

/-- R90 to R93. The six bytes of a frame with index `idx` and argument `arg` are `{01, idx}`, the argument's bytes with the
high one first, and the CRC byte of R92 with its low bit 1; the forcing gives a start byte and a stop bit whatever byte it
is given. The frames of the nine commands, where `a` is the captured argument and the CRC byte is 0x95 for CMD0 and 0x87
for CMD8 unless `CRC_LITERAL` is 1, and 0x01 otherwise. -/
def Obligations.FrameBytes : Prop :=
  ((∀ (literal : Bool) (idx : BitVec 6) (arg : Word),
      frameBytes literal idx arg =
        [ (0b01#2 ++ idx : BitVec 8), arg.extractLsb' 24 8, arg.extractLsb' 16 8, arg.extractLsb' 8 8,
          arg.extractLsb' 0 8, ((crcByte literal idx).extractLsb' 1 7 ++ 1#1 : BitVec 8) ]) ∧
    (∀ b : Byte, forceStart b = (b &&& 0x3F#8) ||| 0x40#8 ∧ (forceStart b).extractLsb' 6 2 = 0b01#2 ∧
      (forceStart b).extractLsb' 0 6 = b.extractLsb' 0 6) ∧
    (∀ b : Byte, forceStop b = b ||| 0x01#8 ∧ (forceStop b).getLsbD 0 = true ∧
      (forceStop b).extractLsb' 1 7 = b.extractLsb' 1 7)) ∧
  (∀ (s : State) (x : Site),
      s.frameOf x =
        (match x.cmd with
         | .cmd0 => [0x40#8, 0#8, 0#8, 0#8, 0#8, if s.par.crcLiteral then 0x01#8 else 0x95#8]
         | .cmd8 => [0x48#8, 0#8, 0#8, 0x01#8, 0xAA#8, if s.par.crcLiteral then 0x01#8 else 0x87#8]
         | .cmd17 => [0x51#8, s.opArg.extractLsb' 24 8, s.opArg.extractLsb' 16 8, s.opArg.extractLsb' 8 8,
             s.opArg.extractLsb' 0 8, 0x01#8]
         | .cmd24 => [0x58#8, s.opArg.extractLsb' 24 8, s.opArg.extractLsb' 16 8, s.opArg.extractLsb' 8 8,
             s.opArg.extractLsb' 0 8, 0x01#8]
         | .cmd25 => [0x59#8, s.opArg.extractLsb' 24 8, s.opArg.extractLsb' 16 8, s.opArg.extractLsb' 8 8,
             s.opArg.extractLsb' 0 8, 0x01#8]
         | .cmd55 => [0x77#8, 0#8, 0#8, 0#8, 0#8, 0x01#8]
         | .cmd58 => [0x7A#8, 0#8, 0#8, 0#8, 0#8, 0x01#8]
         | .acmd41 => [0x69#8, 0x40#8, 0#8, 0#8, 0#8, 0x01#8]
         | .acmd23 => [0x57#8, s.opArg.extractLsb' 24 8, s.opArg.extractLsb' 16 8, s.opArg.extractLsb' 8 8,
             s.opArg.extractLsb' 0 8, 0x01#8]))

/-- R112, and the one-bit property of R113. For every width `w` a pointer can have, both conversions are the rule's (the
recurrence on bits, and the xor of all right shifts), `gray2bin` undoes `bin2gray`, both stay in the width; a step of +1
modulo `2^w` changes exactly one bit of the gray code, the wrap included. -/
def Obligations.GrayCode : Prop :=
  (∀ w : Nat, 1 ≤ w → w ≤ 32 → ∀ b : Word, b.toNat < 2 ^ w →
      bin2gray b = b ^^^ (b >>> 1) ∧
      gray2bin w b = ((List.range w).map fun k => b >>> k).foldl (· ^^^ ·) 0#32 ∧
      gray2bin w (bin2gray b) = b ∧ (bin2gray b).toNat < 2 ^ w ∧ (gray2bin w b).toNat < 2 ^ w ∧
      (gray2bin w b).getLsbD (w - 1) = b.getLsbD (w - 1) ∧
      ∀ i, i + 1 < w → (gray2bin w b).getLsbD i = ((gray2bin w b).getLsbD (i + 1) ^^ b.getLsbD i)) ∧
  ((∀ w : Nat, 1 ≤ w → w ≤ 32 → ∀ b : Word, b.toNat < 2 ^ w →
      ∃ k, k < w ∧ bin2gray b ^^^ bin2gray (addMod w b 1#32) = BitVec.twoPow 32 k) ∧
    (∀ w : Nat, 1 ≤ w → w ≤ 32 →
      bin2gray (BitVec.ofNat 32 (2 ^ w - 1)) = BitVec.twoPow 32 (w - 1) ∧
      addMod w (BitVec.ofNat 32 (2 ^ w - 1)) 1#32 = 0#32 ∧ bin2gray 0#32 = 0#32))

/-! ### Reset -/

/-- R239 and R240. Asserting reset in any state of a legal build gives every listed register its reset value, leaves
RDBUF and the ring memory as they are, and leaves the card's answers alone; while a domain is held in reset no event
of it changes anything. That the ring and the answers are kept is log entry 13, that events of a held
domain are dropped log entry 27. -/
def Obligations.ResetValues : Prop :=
  (∀ s : State, s.par.legal = true →
      ∃ t : State, s.takeEvent .resetAssert = .next t ∧
        (t.head = 0#32 ∧ t.headG = 0#32 ∧ t.tailS.stages = List.replicate s.par.s 0#32 ∧
          t.ovf = false ∧ t.pLost = false ∧ t.penS.stages = List.replicate s.par.s false ∧
          t.fatS.stages = List.replicate s.par.s false ∧ t.pq = [] ∧ t.pReady = true ∧ t.markArmed = true ∧
          t.mport = { ceN := true, weN := true, dqInput := true } ∧ t.memReq = none) ∧
        (t.tailB = 0#32 ∧ t.tailG = 0#32 ∧ t.headS.stages = List.replicate s.par.s 0#32 ∧
          t.ovfS.stages = List.replicate s.par.s false ∧ t.plostS.stages = List.replicate s.par.s false ∧
          t.fatalC = .none ∧ t.session = .notInit ∧ t.fast = false ∧
          t.sdCsN = true ∧ t.sdMosi = true ∧ t.sdSclk = false ∧ t.isBusy = false) ∧
        (t.hostRead 0x000#12 = 0#32 ∧ t.hostRead 0x008#12 = 0#32 ∧ t.hostRead 0x00C#12 = 0#32 ∧
          t.hostRead 0x010#12 = 0x0000FFFF#32 ∧ t.hostRead 0x014#12 = 0#32 ∧ t.hostRead 0x018#12 = 0#32 ∧
          t.hostRead 0x01C#12 = 0#32 ∧ t.hostRead 0x020#12 = 0#32 ∧ t.hostRead 0x024#12 = 0#32 ∧
          t.hostRead 0x028#12 = 0#32 ∧ t.hostRead 0x030#12 = 0#32) ∧
        (t.hostRead 0x040#12 = 20#32 ∧ t.hostRead 0x044#12 = 8#32 ∧ t.hostRead 0x048#12 = 10#32 ∧
          t.hostRead 0x04C#12 = 10#32 ∧ t.hostRead 0x050#12 = 10#32 ∧ t.hostRead 0x054#12 = 10#32 ∧
          t.hostRead 0x058#12 = 8#32 ∧ t.hostRead 0x05C#12 = 4096#32 ∧ t.hostRead 0x060#12 = 65535#32 ∧
          t.hostRead 0x064#12 = 8#32 ∧ t.hostRead 0x068#12 = 0x000FFFFF#32 ∧ t.hostRead 0x06C#12 = 16#32 ∧
          t.hostRead 0x070#12 = 3#32 ∧ t.hostRead 0x074#12 = 0x0001007F#32) ∧
        (t.irq = false ∧ t.indA = false ∧ t.indB = false) ∧
        (t.rdbuf = s.rdbuf ∧ t.mem = s.mem ∧ t.miso = s.miso ∧ t.par = s.par)) ∧
  (∀ (s : State) (e : Event),
      (s.rstP = true → e.inProducerDomain = true → s.runEvent e = .next s) ∧
      (s.rstC = true → e.inConsumerDomain = true → s.runEvent e = .next s))

/-- The three invariants hold right after reset in every legal build, and `State.reset` is the default one. The reset
values the spec gives none of are log entries 5 and 6, the default build is log entry 1. -/
def Obligations.ResetInvariants : Prop :=
  Params.default.legal = true ∧ State.reset = State.resetWith Params.default ∧
  ∀ p : Params, p.legal = true →
    DataInv (State.resetWith p) ∧ ControlInv (State.resetWith p) ∧ RingInv (State.resetWith p)

/-! ### The step -/

/-- A step runs the instruction that is decoded where the machine fetches: a word written to CMD (by a bus event or
by the next line of the host program), a producer word, the byte the engine is about to send, the byte the card
answers in the format of the engine's position. A card byte that is no instruction of that format is received as it
is. Which event is next is the agenda's (log entry 2); a card byte is an instruction in the format of the engine's
position (log entries 16 and 17). -/
def Obligations.StepRunsDecoded : Prop :=
  (∀ (s : State) (rest : List Event) (addr : BitVec 12) (w : Word) (i : Instr),
    s.par.legal = true → s.rstC = false → s.agenda = .hostWrite addr w :: rest →
    addr &&& 0xFFC#12 = 0x004#12 → decode .hostop w = .instr i →
    step s = exec i { s with agenda := rest }) ∧
  (∀ (s : State) (rest : List Event) (addr : BitVec 12) (w : Word) (i : Instr),
    s.par.legal = true → s.rstC = false → s.agenda = .hostLine :: rest →
    s.host.prog[s.host.line]? = some (.wr addr w) →
    addr &&& 0xFFC#12 = 0x004#12 → decode .hostop w = .instr i →
    step s = exec i { s with agenda := rest, host := { s.host with line := s.host.line + 1 } }) ∧
  (∀ (s : State) (rest : List Event) (w : BitVec 17) (i : Instr),
    s.par.legal = true → s.rstP = false → s.agenda = .producerEvent w :: rest →
    decode .pevent (w.setWidth 32) = .instr i →
    step s = exec i { s with agenda := rest }) ∧
  (∀ (s : State) (rest : List Event) (f : Format) (tx : Byte) (i : Instr),
    s.par.legal = true → s.rstC = false → s.agenda = .engine :: rest →
    s.pos.port = .send f → s.nextTx = some tx → decode f (tx.setWidth 32) = .instr i →
    step s = exec i { s with agenda := rest }) ∧
  (∀ (s : State) (rest : List Event) (more : List Byte) (f : Format) (b : Byte) (i : Instr),
    s.par.legal = true → s.rstC = false → s.agenda = .engine :: rest →
    s.pos.port = .receive f → s.miso = b :: more → decode f (b.setWidth 32) = .instr i →
    step s = exec i { s with agenda := rest, miso := more }) ∧
  (∀ (s : State) (rest : List Event) (more : List Byte) (f : Format) (why : DecodeError) (tx b : Byte),
    s.par.legal = true → s.rstC = false → s.agenda = .engine :: rest →
    s.pos.port = .receive f → s.nextTx = some tx → s.miso = b :: more →
    decode f (b.setWidth 32) = .rejected why →
    step s = .next (({ s with agenda := rest, miso := more }.xfer tx b).received b))

/-- R238. A legal build never refuses a step, and never faults but on a torn synchronizer capture: an event whose
captured bits are neither the source's current bits nor those before its latest change. A build out of range is
refused. The fault is the model's (log entry 12), the value before the latest change log entry 11. -/
def Obligations.StepAlwaysDefined : Prop :=
  (∀ s : State, s.par.legal = true →
    (∃ t, step s = .next t) ∨
    (∃ x v, s.nextEvent = .sync x (.bits v) ∧ step s = .fault (.tornCapture x) ∧
      let bit := fun b : Bool => if b then 1#32 else 0#32
      match x with
      | .head => v ≠ s.headG ∧ s.headS.old ≠ some v
      | .tail => v ≠ s.tailG ∧ s.tailS.old ≠ some v
      | .pen => v ≠ bit s.ctrl.prodEn ∧ ∀ o, s.penS.old = some o → v ≠ bit o
      | .fat => v ≠ bit (decide (s.fatalC ≠ .none)) ∧ ∀ o, s.fatS.old = some o → v ≠ bit o
      | .ovf => v ≠ bit s.ovf ∧ ∀ o, s.ovfS.old = some o → v ≠ bit o
      | .plost => v ≠ bit s.pLost ∧ ∀ o, s.plostS.old = some o → v ≠ bit o)) ∧
  (∀ s : State, s.par.legal = false → step s = .refused .parameterOutOfRange)

/-! ### Host command words -/

/-- R152. NOP changes nothing in any state, and every word with `w[3:0] = 0` is NOP. -/
def Obligations.NopChangesNothing : Prop :=
  (∀ s : State, exec .nop s = .next s) ∧
  (∀ w : Word, w.extractLsb' 0 4 = 0#4 → decode .hostop w = .instr .nop)

/-- R153. A word with `w[3:0]` in 8 to F is a reserved opcode: E_BAD_OP at once; while busy CMD_LOST instead; in a halted
block E_HALTED. Nothing else changes. The example is the write of 0xF at reset. -/
def Obligations.ReservedOpcode : Prop :=
  (∀ w : Word, 8#4 ≤ w.extractLsb' 0 4 → decode .hostop w = .instr (.reservedOp (w.extractLsb' 0 4))) ∧
  (∀ (s : State) (op : BitVec 4), 8#4 ≤ op →
    (s.isBusy = false → s.fatal = 0#2 →
      exec (.reservedOp op) s = .next { s with code := .eBadOp, done := true }) ∧
    (s.isBusy = true → exec (.reservedOp op) s = .next { s with cmdLost := true }) ∧
    (s.isBusy = false → s.fatal ≠ 0#2 →
      exec (.reservedOp op) s = .next { s with code := .eHalted, done := true })) ∧
  (∃ t, exec (.reservedOp 0xF#4) State.reset = .next t ∧ t.code.byte = 0x54#8 ∧ t.done = true ∧
    t.hostRead 0x00C#12 = 0x00005402#32)

/-- R157 and R154. A command word other than NOP while an operation runs is dropped: the operation goes on, CMD_LOST is
set. In a halted block every command word other than NOP, issued while idle, completes at once with E_HALTED. Nothing else
changes. -/
def Obligations.CommandTurnedAway : Prop :=
  (∀ (i : Instr) (s : State), i.format = .hostop → i ≠ .nop → s.isBusy = true →
      exec i s = .next { s with cmdLost := true }) ∧
  (∀ (i : Instr) (s : State), i.format = .hostop → i ≠ .nop → s.isBusy = false → s.fatal ≠ 0#2 →
      exec i s = .next { s with code := .eHalted, done := true })

/-- R148 and R149. The caller errors: which status each operation completes with at once in each SESSION, the block check
after the SESSION check, and that only CODE and DONE change. -/
def Obligations.PrecheckErrors : Prop :=
  ∀ s : State, s.isBusy = false → s.fatal = 0#2 →
    (s.session = .notInit →
      (∀ i ∈ [Instr.readBlock, .writeBlock, .beginSession, .preErase],
        exec i s = .next { s with code := .eNotInit, done := true }) ∧
      (∀ i ∈ [Instr.writeSegment, .endSession],
        exec i s = .next { s with code := .eNoSession, done := true })) ∧
    (s.session = .ready →
      (∀ i ∈ [Instr.writeSegment, .endSession],
        exec i s = .next { s with code := .eNoSession, done := true }) ∧
      (s.pending < 512#32 → exec .writeBlock s = .next { s with code := .eNoBlock, done := true })) ∧
    (s.session = .sessionOpen →
      (∀ i ∈ [Instr.init, .readBlock, .writeBlock, .beginSession, .preErase],
        exec i s = .next { s with code := .eSessionOpen, done := true }) ∧
      (s.pending < 512#32 → exec .writeSegment s = .next { s with code := .eNoBlock, done := true }))

/-- R145 and R148. When the checks pass, the operation starts: DONE falls, `a` is captured, the engine stands at the
first line of the operation's pseudocode, so BUSY is 1, and nothing else changes. That INIT's first register writes
are an event of their own is log entry 7. -/
def Obligations.OperationStarts : Prop :=
  ∀ s : State, s.isBusy = false → s.fatal = 0#2 →
    let started := fun p : Pos =>
      ({ s with done := false, opArg := s.arg, pos := p } : State)
    (∀ p : Pos, p ≠ .idle → (started p).isBusy = true) ∧
    (s.session = .notInit ∨ s.session = .ready → exec .init s = .next (started .initBegin)) ∧
    (s.session = .ready →
      exec .readBlock s = .next (started (.select .cmd17)) ∧
      exec .beginSession s = .next (started (.select .cmd25)) ∧
      exec .preErase s =
        .next (started (.select (.pass (.cmd55Erase (s.cfg.nPre.toNat - 1) (s.cfg.nCmd55.toNat - 1))))) ∧
      (512#32 ≤ s.pending → exec .writeBlock s = .next (started (.select .cmd24)))) ∧
    (s.session = .sessionOpen →
      exec .endSession s = .next (started .tokenStop) ∧
      (512#32 ≤ s.pending → exec .writeSegment s = .next (started .tokenSegment)))

/-! ### Completion, status codes and the fatal state -/

/-- R217. The numbers of the 27 status codes, and that there are no others. -/
def Obligations.StatusCodeNumbers : Prop :=
  [Code.ok, .eInitCmd0, .eInitCmd8, .eInitCmd58Pre, .eInitCmd55, .eInitAcmd41, .eInitCmd58Post,
    .eRdCmd, .eRdToken, .eWrCmd, .eWrDrespTimeout, .eWrCrc, .eWrWrite, .eWrDrespOther, .eWrBusy,
    .eSesCmd, .eSesDresp, .eSesBusy, .eSesEndBusy, .wPreCmd55, .wPreAcmd23,
    .eNotInit, .eSessionOpen, .eNoSession, .eNoBlock, .eBadOp, .eHalted].map Code.byte =
    [0x00#8, 0x01#8, 0x02#8, 0x03#8, 0x04#8, 0x05#8, 0x06#8, 0x10#8, 0x11#8, 0x20#8, 0x21#8, 0x22#8, 0x23#8,
      0x24#8, 0x25#8, 0x30#8, 0x31#8, 0x32#8, 0x33#8, 0x40#8, 0x41#8, 0x50#8, 0x51#8, 0x52#8, 0x53#8, 0x54#8,
      0x55#8] ∧
  ∀ c : Code, c.byte ∈ [0x00#8, 0x01#8, 0x02#8, 0x03#8, 0x04#8, 0x05#8, 0x06#8, 0x10#8, 0x11#8, 0x20#8, 0x21#8,
    0x22#8, 0x23#8, 0x24#8, 0x25#8, 0x30#8, 0x31#8, 0x32#8, 0x33#8, 0x40#8, 0x41#8, 0x50#8, 0x51#8, 0x52#8,
    0x53#8, 0x54#8, 0x55#8]

/-- R150 and R223. The completion of a running operation: CODE, BUSY and DONE, and FATAL_C by the class of the code
when it was 0; nothing else changes, but the old value that the FATAL_C crossing remembers (log entry 11). -/
def Obligations.CompletionRecords : Prop :=
  ∀ (s : State) (c : Code),
    (s.finish c).code = c ∧ (s.finish c).isBusy = false ∧ (s.finish c).done = true ∧
    (s.finish c).fatalC =
      (if s.fatalC ≠ .none then s.fatalC
       else if 0x01#8 ≤ c.byte ∧ c.byte ≤ 0x06#8 then .cardNotInitialized
       else if 0x10#8 ≤ c.byte ∧ c.byte ≤ 0x33#8 then .generic
       else .none) ∧
    (s.finish c).fatS.stages = s.fatS.stages ∧
    ({ s.finish c with fatalC := s.fatalC, fatS := s.fatS } : State) =
      { s with code := c, pos := .idle, done := true }

/-- R26, R29 and R36. Nothing but reset clears OVF or P_LOST, and FATAL_C once set keeps its value until reset. -/
def Obligations.StickyFlags : Prop :=
  ∀ s t : State, step s = .next t → s.nextEvent ≠ .resetAssert →
    (s.ovf = true → t.ovf = true) ∧ (s.pLost = true → t.pLost = true) ∧
    (s.fatalC ≠ .none → t.fatalC = s.fatalC)

/-- R227 and R155. The engine of a halted block that is idle and finds the card selected deselects it once, sends no
byte and keeps SESSION; with the card deselected, or the block not halted, an idle engine does nothing. R228: the
indicators are 0 while FATAL is 0; while it is `c` they repeat `c` pulses on `ind_a` and then one on `ind_b`. That
the deselect is an event of the idle engine is log entry 25; that each edge of the pattern is an event, and that the
first pulse is high from the moment FATAL is non-zero, is log entry 19 (DESIGN CHOICE). -/
def Obligations.HaltDeselectsOnce : Prop :=
  (∀ s : State, s.pos = .idle →
    (s.fatal ≠ 0#2 → s.sdCsN = false →
      s.engineEvent = .next { s with sdCsN := true, cardTrace := .cs true :: s.cardTrace }) ∧
    (s.sdCsN = true ∨ s.fatal = 0#2 → s.engineEvent = .next s)) ∧
  (∀ s : State,
    (s.fatal = 0#2 → s.indA = false ∧ s.indB = false) ∧
    s.takeEvent .blink = .next s.blinkEdge ∧ ({ s.blinkEdge with blink := s.blink } : State) = s ∧
    (s.fatal ≠ 0#2 → s.blink = 0 → ∀ k : Nat,
      let t := State.blinkEdge^[k] s
      let phase := k % (2 * (s.fatal.toNat + 1))
      (t.indA = true ↔ phase % 2 = 0 ∧ phase / 2 < s.fatal.toNat) ∧
      (t.indB = true ↔ phase = 2 * s.fatal.toNat)))

/-! ### The host port -/

/-- R44. The fields of STATUS as a host reads them, down to the registers: the numbers of SESSION (R37), FATAL as 1
when the last stage of OVF_S is 1 and else the number of FATAL_C (R222, R36); each is the register's value at that
cycle, while an operation runs as well (R74, R88). That FAST, CCS and ATTEMPTS read live beside R158 is the model's
reading, log entry 29 (DEDUCED). The crossed flags PEN_P, FAT_P, OVF_SEEN and P_LOST_SEEN are the last stages of their
chains (R27, R28, R35). -/
def Obligations.StatusFields : Prop :=
  ∀ s : State,
    s.penP = s.penS.stages.getLastD false ∧ s.fatP = s.fatS.stages.getLastD false ∧
    (s.hostRead 0x00C#12).getLsbD 0 = s.isBusy ∧
    (s.hostRead 0x00C#12).getLsbD 1 = s.done ∧
    (s.hostRead 0x00C#12).getLsbD 2 = decide (512#32 ≤ s.pending) ∧
    (s.hostRead 0x00C#12).getLsbD 3 = s.cmdLost ∧
    (s.hostRead 0x00C#12).extractLsb' 4 2 =
      (match s.session with
       | .notInit => 0#2
       | .initializing => 1#2
       | .ready => 2#2
       | .sessionOpen => 3#2) ∧
    (s.hostRead 0x00C#12).getLsbD 6 = false ∧
    (s.hostRead 0x00C#12).getLsbD 7 = s.fast ∧
    (s.hostRead 0x00C#12).extractLsb' 8 8 = s.code.byte ∧
    (s.hostRead 0x00C#12).extractLsb' 16 2 =
      (if s.ovfS.stages.getLastD false then 1#2
       else
         match s.fatalC with
         | .none => 0#2
         | .cardNotInitialized => 2#2
         | .generic => 3#2) ∧
    (s.hostRead 0x00C#12).extractLsb' 16 2 = s.fatal ∧
    (s.hostRead 0x00C#12).getLsbD 18 = s.ovfS.stages.getLastD false ∧
    (s.hostRead 0x00C#12).getLsbD 19 = s.ccs ∧
    (s.hostRead 0x00C#12).extractLsb' 20 3 = s.attempts ∧
    (s.hostRead 0x00C#12).getLsbD 23 = s.plostS.stages.getLastD false ∧
    (s.hostRead 0x00C#12).extractLsb' 24 8 = 0#8

/-- R41, R42, R45 to R53. What the other registers read: their value at that cycle (R74, R88). R158: the engine's
control state is not host-visible, so two running blocks that differ in it alone read the same everywhere and have
the same irq; CODE does not change before the operation completes. How R158 stands beside R74 and R88, for
OCR, R7 and RDCRC too, is log entry 29 (DEDUCED). -/
def Obligations.RegisterReads : Prop :=
  (∀ (s : State) (p : Pos) (a : Word) (addr : BitVec 12), s.isBusy = true → p ≠ .idle →
    ({ s with pos := p, opArg := a } : State).hostRead addr = s.hostRead addr ∧
    ({ s with pos := p, opArg := a } : State).irq = s.irq) ∧
  (∀ s t : State, step s = .next t → s.nextEvent ≠ .resetAssert → t.isBusy = true →
    (t.hostRead 0x00C#12).extractLsb' 8 8 = (s.hostRead 0x00C#12).extractLsb' 8 8) ∧
  ∀ s : State, s.par.legal = true →
    (s.hostRead 0x000#12).getLsbD 0 = s.ctrl.prodEn ∧ (s.hostRead 0x000#12).getLsbD 1 = s.ctrl.ieDone ∧
    (s.hostRead 0x000#12).getLsbD 2 = s.ctrl.ieReady ∧ (s.hostRead 0x000#12).getLsbD 3 = s.ctrl.ieFatal ∧
    (s.hostRead 0x000#12).extractLsb' 4 28 = 0#28 ∧
    s.hostRead 0x004#12 = 0#32 ∧ s.hostRead 0x008#12 = s.arg ∧
    s.hostRead 0x010#12 = (0#16 ++ s.lastTok ++ s.lastR1 : BitVec 32) ∧
    s.hostRead 0x014#12 = s.ocr ∧ s.hostRead 0x018#12 = s.r7 ∧
    s.hostRead 0x01C#12 = gray2bin s.par.n (s.headS.stages.getLastD 0#32) ∧
    s.hostRead 0x020#12 = s.tailB <<< 9 ∧
    s.hostRead 0x024#12 = subMod s.par.n (s.hostRead 0x01C#12) (s.hostRead 0x020#12) ∧
    s.hostRead 0x028#12 = s.sesBlocks ∧
    (s.hostRead 0x02C#12).extractLsb' 0 6 = BitVec.ofNat 6 s.par.n ∧
    (s.hostRead 0x02C#12).extractLsb' 6 2 = 0#2 ∧
    (s.hostRead 0x02C#12).extractLsb' 8 4 = BitVec.ofNat 4 s.par.s ∧
    (s.hostRead 0x02C#12).getLsbD 12 = s.par.lsbFirst ∧
    (s.hostRead 0x02C#12).getLsbD 13 = s.par.crcLiteral ∧
    (s.hostRead 0x02C#12).extractLsb' 14 18 = 0#18 ∧
    s.hostRead 0x030#12 = (0#16 ++ s.rdcrc : BitVec 32)

/-- R65 and R190. Byte `4k + j` of RDBUF is in bits `8j + 7 : 8j` of the word at `0x200 + 4k`. -/
def Obligations.ReadBufferWords : Prop :=
  ∀ s : State, s.rdbuf.length = 512 → ∀ k j : Nat, k < 128 → j < 4 →
    s.rdbuf[4 * k + j]? =
      some ((s.hostRead (BitVec.ofNat 12 (0x200 + 4 * k))).extractLsb' (8 * j) 8)

/-- R229, on the words a host reads. -/
def Obligations.InterruptLevel : Prop :=
  ∀ s : State,
    s.irq =
      ((((s.hostRead 0x00C#12).getLsbD 1 && (s.hostRead 0x000#12).getLsbD 1) ||
        ((s.hostRead 0x00C#12).getLsbD 2 && (s.hostRead 0x000#12).getLsbD 2)) ||
        (((s.hostRead 0x00C#12).extractLsb' 16 2 != 0#2) && (s.hostRead 0x000#12).getLsbD 3))

/-- R75 and R80. A host read changes no register but `h_rdata`, and the two low address bits are ignored by reads and
writes. -/
def Obligations.HostReadPure : Prop :=
  (∀ (s : State) (addr : BitVec 12),
    s.takeEvent (.hostRead addr) = .next { s with hRdata := s.hostRead addr }) ∧
  (∀ (s : State) (addr : BitVec 12) (v : Word),
    s.hostRead addr = s.hostRead (addr &&& 0xFFC#12) ∧
    s.takeEvent (.hostWrite addr v) = s.takeEvent (.hostWrite (addr &&& 0xFFC#12) v))

/-- R40. Every offset outside the map reads 0, and a write to it or to a read-only register changes nothing. -/
def Obligations.ReservedOffsets : Prop :=
  ∀ (s : State) (addr : BitVec 12) (v : Word),
    ((0x034#12 ≤ addr ∧ addr ≤ 0x03F#12) ∨ (0x078#12 ≤ addr ∧ addr ≤ 0x1FF#12) ∨ 0x400#12 ≤ addr →
      s.hostRead addr = 0#32 ∧ s.takeEvent (.hostWrite addr v) = .next s) ∧
    ((0x010#12 ≤ addr ∧ addr ≤ 0x033#12) ∨ (0x200#12 ≤ addr ∧ addr ≤ 0x3FF#12) →
      s.takeEvent (.hostWrite addr v) = .next s)

/-- R43 and R156. While an operation runs, writes to ARG and to every CFG_* register change nothing. -/
def Obligations.WritesWhileBusy : Prop :=
  ∀ (s : State) (addr : BitVec 12) (v : Word), s.isBusy = true →
    (0x008#12 ≤ addr ∧ addr ≤ 0x00B#12) ∨ (0x040#12 ≤ addr ∧ addr ≤ 0x077#12) →
    s.takeEvent (.hostWrite addr v) = .next s

/-- R54 to R64. A CFG_* register written while no operation runs reads back as written in its field, raised to the field's
minimum, with 0 in the reserved bits, and only that register changes. -/
def Obligations.CeilingMinimum : Prop :=
  ∀ (s : State) (v : Word), s.isBusy = false →
    let written := fun (addr : BitVec 12) (value : Word) =>
      ∃ t : State, s.takeEvent (.hostWrite addr v) = .next t ∧ t.hostRead addr = value ∧
        ({ t with cfg := s.cfg } : State) = s ∧
        ∀ other : BitVec 12, other &&& 0xFFC#12 ≠ addr → t.hostRead other = s.hostRead other
    written 0x040#12 (if v &&& 0xFF#32 < 20#32 then 20#32 else v &&& 0xFF#32) ∧
    written 0x044#12 (if v &&& 0xFF#32 = 0#32 then 1#32 else v &&& 0xFF#32) ∧
    (∀ addr ∈ [0x048#12, 0x04C#12, 0x050#12, 0x054#12, 0x058#12, 0x05C#12, 0x064#12, 0x06C#12],
      written addr (if v &&& 0xFFFF#32 = 0#32 then 1#32 else v &&& 0xFFFF#32)) ∧
    (∀ addr ∈ [0x060#12, 0x068#12], written addr (if v = 0#32 then 1#32 else v)) ∧
    written 0x070#12 (if v &&& 0x7#32 = 0#32 then 1#32 else v &&& 0x7#32) ∧
    written 0x074#12 (v &&& 0x1FFFF#32)

/-- R41, R43 and R44. Writes of CTRL and of STATUS take effect at any time, a write of ARG while no operation runs;
each changes only its own register (CTRL also notes the old PROD_EN for the crossing, log entry 11). -/
def Obligations.ControlWrites : Prop :=
  ∀ (s : State) (v : Word),
    s.takeEvent (.hostWrite 0x000#12 v) =
      .next { s with
        ctrl := { prodEn := v.getLsbD 0, ieDone := v.getLsbD 1, ieReady := v.getLsbD 2, ieFatal := v.getLsbD 3 },
        penS := if v.getLsbD 0 = s.ctrl.prodEn then s.penS else { s.penS with old := some s.ctrl.prodEn } } ∧
    s.takeEvent (.hostWrite 0x00C#12 v) =
      .next { s with done := s.done && !v.getLsbD 1, cmdLost := s.cmdLost && !v.getLsbD 3 } ∧
    (s.isBusy = false → s.takeEvent (.hostWrite 0x008#12 v) = .next { s with arg := v })

/-! ### The card port -/

/-- R159, R163, R168, R169, R236. An XFER puts the byte sent, the byte received and the chip-select on the trace and
leaves SCLK 0 and MOSI 1; the byte received is the card's next answer, whatever it is. An exchange begins with one
CS(0) event, and an EPILOGUE is one CS(1) event and then one XFER of 0xFF. The list of answers is log entry 3, the
idle levels of MOSI and SCLK log entry 24. -/
def Obligations.CardPortEvents : Prop :=
  ((∀ (s : State) (tx rx : Byte),
      s.xfer tx rx =
        { s with cardTrace := .xfer s.sdCsN tx rx :: s.cardTrace, sdMosi := true, sdSclk := false }) ∧
    (∀ (s : State) (b : Byte) (rest : List Byte), s.miso = b :: rest →
      s.cardAnswer = b ∧ s.answerTaken = { s with miso := rest }) ∧
    (∀ s : State, s.miso = [] →
      s.cardAnswer = Config.cardByte s.draws ∧ s.answerTaken = { s with draws := s.draws + 1 })) ∧
  ((∀ (s : State) (x : Site), s.pos = .select x →
      s.engineEvent =
        .next { s with sdCsN := false, cardTrace := .cs false :: s.cardTrace, pos := .command x }) ∧
    (∀ (s : State) (a : After), s.pos = .deselect a →
      s.engineEvent =
        .next { s with sdCsN := true, cardTrace := .cs true :: s.cardTrace, pos := .trail a }) ∧
    (∀ (s : State) (c : Code), s.pos = .trail (.finish c) →
      s.engineEvent = .next ((s.answerTaken.xfer 0xFF#8 s.cardAnswer).finish c)) ∧
    (∀ (s : State) (c : Code), s.pos = .trail (.leave c) →
      s.engineEvent =
        .next (({ s.answerTaken.xfer 0xFF#8 s.cardAnswer with session := .ready } : State).finish c)))

/-- R90, R93 and R164. The card command byte of each of the nine commands, where the engine is about to send it: byte 0 of
the frame goes out, the card's byte is discarded, the engine goes on to frame byte 1. Elsewhere nothing is sent (log
entry 16). -/
def Obligations.CommandByteSent : Prop :=
  (∀ (s : State) (x : Site), s.pos = .command x →
    exec x.cmd.instr s =
      .next { s.answerTaken with
        cardTrace := .xfer s.sdCsN (0b01#2 ++ x.cmd.index : BitVec 8) s.cardAnswer :: s.cardTrace,
        sdMosi := true, sdSclk := false, pos := .frame x 1 }) ∧
  (∀ (s : State) (c : CardCmd), (∀ x, s.pos = .command x → x.cmd ≠ c) → exec c.instr s = .next s)

/-- R164. A frame on the wire: six XFERs in frame order, the received bytes ignored, then the response poll with its
ceiling. -/
def Obligations.FrameOnWire : Prop :=
  ∀ (s : State) (x : Site) (answers rest : List Byte),
    s.pos = .command x → answers.length = 6 → s.miso = answers ++ rest →
    s.engineRun 6 =
      .next { s with
        miso := rest,
        cardTrace := (((s.frameOf x).zip answers).map fun p => CardEvent.xfer s.sdCsN p.1 p.2).reverse ++ s.cardTrace,
        sdMosi := true, sdSclk := false,
        pos := .poll x
          ((if x.cmd = .acmd41 ∨ x.cmd = .acmd23 then s.cfg.nAcmdR1.toNat else s.cfg.nNcr.toNat) - 1) }

/-- R165 and R166. The response polls, `left + 1` reads allowed: bytes that do not end the poll are skipped, the first that
ends it, or the last one read, is the R1 and goes to LAST_R1. 0xFF does not end R1POLL; a byte with bit 7 set does not end
R1POLL_B7, which ACMD41 and ACMD23 use. -/
def Obligations.ResponsePoll : Prop :=
  ∀ (s : State) (x : Site) (left : Nat) (skipped rest : List Byte) (r : Byte),
    let ends := fun b : Byte => if x.cmd = .acmd41 ∨ x.cmd = .acmd23 then b.getLsbD 7 = false else b ≠ 0xFF#8
    s.pos = .poll x left → (∀ b ∈ skipped, ¬ ends b) → skipped.length ≤ left →
    (ends r ∨ skipped.length = left) → s.miso = skipped ++ r :: rest →
    s.engineRun (skipped.length + 1) =
      .next (({ s with
        miso := rest,
        cardTrace := ((skipped ++ [r]).map fun b => CardEvent.xfer s.sdCsN 0xFF#8 b).reverse ++ s.cardTrace,
        sdMosi := true, sdSclk := false, lastR1 := r } : State).r1Done x r)

/-- R176, R178, R179, R181, R182, R184, R189, R192, R204, R207. What each exchange does with its R1: the byte it needs, and
where it goes then. -/
def Obligations.R1Outcome : Prop :=
  (∀ (s : State) (r : Byte),
    s.r1Done .cmd17 r =
      { s with pos := if r = 0x00#8 then .tokenPoll (s.cfg.nRdtok.toNat - 1) else .deselect (.finish .eRdCmd) } ∧
    s.r1Done .cmd24 r = { s with pos := if r = 0x00#8 then .gapBlock else .deselect (.finish .eWrCmd) } ∧
    s.r1Done .cmd25 r = { s with pos := if r = 0x00#8 then .gapSession else .deselect (.finish .eSesCmd) }) ∧
  (∀ (s : State) (r : Byte) (p : Pass),
    (∃ att left, p = .cmd0 att left) ∨ (∃ att outer left, p = .cmd55Init att outer left) →
    s.r1Done (.pass p) r = { s with pos := .deselect (.pass p (decide (r = 0x01#8))) }) ∧
  (∀ (s : State) (r : Byte) (p : Pass), (∃ att left, p = .cmd8 att left) ∨ (∃ att left, p = .cmd58Pre att left) →
    s.r1Done (.pass p) r =
      { s with pos := if r = 0x01#8 then .resp p 0 0#32 else .deselect (.pass p false) }) ∧
  (∀ (s : State) (r : Byte) (p : Pass),
    (∃ att outer, p = .acmd41 att outer) ∨ (∃ outer left, p = .cmd55Erase outer left) ∨ (∃ outer, p = .acmd23 outer) →
    s.r1Done (.pass p) r = { s with pos := .deselect (.pass p (decide (r = 0x00#8))) }) ∧
  (∀ (s : State) (r : Byte) (att left : Nat),
    s.r1Done (.pass (.cmd58Post att left)) r =
      { s with
        pos := if r = 0x00#8 then .resp (.cmd58Post att left) 0 0#32
          else .deselect (.pass (.cmd58Post att left) false) })

/-- R178, R179, R184. The four bytes after an expected R1 of CMD8 and CMD58: R7 keeps them and the last must echo 0xAA; the
pre-init CMD58 discards them; the post-init CMD58 stores OCR and CCS. First byte high. -/
def Obligations.ResponseBytes : Prop :=
  ∀ (s : State) (att left : Nat) (v0 v1 v2 v3 : Byte) (rest : List Byte),
    s.miso = v0 :: v1 :: v2 :: v3 :: rest →
    let read := fun t : State =>
      ({ t with
        miso := rest, sdMosi := true, sdSclk := false,
        cardTrace := ([v0, v1, v2, v3].map fun b => CardEvent.xfer s.sdCsN 0xFF#8 b).reverse ++ s.cardTrace } : State)
    (s.pos = .resp (.cmd8 att left) 0 0#32 →
      s.engineRun 4 =
        .next (read { s with
          r7 := v0 ++ v1 ++ v2 ++ v3, pos := .deselect (.pass (.cmd8 att left) (decide (v3 = 0xAA#8))) })) ∧
    (s.pos = .resp (.cmd58Pre att left) 0 0#32 →
      s.engineRun 4 = .next (read { s with pos := .deselect (.pass (.cmd58Pre att left) true) })) ∧
    (s.pos = .resp (.cmd58Post att left) 0 0#32 →
      s.engineRun 4 =
        .next (read { s with
          ocr := v0 ++ v1 ++ v2 ++ v3, ccs := v0.getLsbD 6,
          pos := .deselect (.pass (.cmd58Post att left) true) }))

/-- R173, R174, R176, R178 to R186, R204. What follows the trailing byte of a pass: a failed pass is repeated while
its ceiling allows; an exhausted INIT step starts the next attempt, or after MAX_INIT attempts ends the operation
with that step's code, SESSION NOT_INIT and FATAL_C 2; success goes to the next step, FAST rising after ACMD41 only;
the last step makes SESSION READY with code OK; PRE_ERASE ends with OK or a warning that is not fatal. The old value
that the FATAL_C crossing remembers is log entry 11. -/
def Obligations.PassSequence : Prop :=
  ∀ (s : State) (p : Pass) (ok : Bool), s.pos = .trail (.pass p ok) →
    let x := s.answerTaken.xfer 0xFF#8 s.cardAnswer
    let goes := fun q : Pass => s.engineEvent = .next { x with pos := .select (.pass q) }
    (∀ att left outer, ok = false →
      (p = .cmd0 att (left + 1) → goes (.cmd0 att left)) ∧
      (p = .cmd8 att (left + 1) → goes (.cmd8 att left)) ∧
      (p = .cmd58Pre att (left + 1) → goes (.cmd58Pre att left)) ∧
      (p = .cmd55Init att outer (left + 1) → goes (.cmd55Init att outer left)) ∧
      (p = .acmd41 att (outer + 1) → goes (.cmd55Init att outer (s.cfg.nCmd55.toNat - 1))) ∧
      (p = .cmd58Post att (left + 1) → goes (.cmd58Post att left)) ∧
      (p = .cmd55Erase outer (left + 1) → goes (.cmd55Erase outer left)) ∧
      (p = .acmd23 (outer + 1) → goes (.cmd55Erase outer (s.cfg.nCmd55.toNat - 1)))) ∧
    (∀ att outer, ok = false →
      ∀ step ∈ [(Pass.cmd0 att 0, Code.eInitCmd0), (.cmd8 att 0, .eInitCmd8), (.cmd58Pre att 0, .eInitCmd58Pre),
          (.cmd55Init att outer 0, .eInitCmd55), (.acmd41 att 0, .eInitAcmd41), (.cmd58Post att 0, .eInitCmd58Post)],
        p = step.1 →
        (att < s.cfg.maxInit.toNat →
          s.engineEvent =
            .next { x with attempts := BitVec.ofNat 3 (att + 1), pos := .initDeselect (att + 1) }) ∧
        (s.cfg.maxInit.toNat ≤ att → s.fatalC = .none →
          s.engineEvent =
            .next { x with
              session := .notInit, code := step.2, done := true, pos := .idle,
              fatalC := .cardNotInitialized, fatS := { s.fatS with old := some false } })) ∧
    (∀ att left outer, ok = true →
      (p = .cmd0 att left → goes (.cmd8 att (s.cfg.nCmd8.toNat - 1))) ∧
      (p = .cmd8 att left → goes (.cmd58Pre att (s.cfg.nCmd58.toNat - 1))) ∧
      (p = .cmd58Pre att left →
        goes (.cmd55Init att (s.cfg.nAcmd41.toNat - 1) (s.cfg.nCmd55.toNat - 1))) ∧
      (p = .cmd55Init att outer left → goes (.acmd41 att outer)) ∧
      (p = .acmd41 att outer →
        s.engineEvent =
          .next { x with fast := true, pos := .select (.pass (.cmd58Post att (s.cfg.nCmd58.toNat - 1))) }) ∧
      (p = .cmd58Post att left →
        s.engineEvent = .next { x with session := .ready, code := .ok, done := true, pos := .idle }) ∧
      (p = .cmd55Erase outer left → goes (.acmd23 outer)) ∧
      (p = .acmd23 outer → s.engineEvent = .next { x with code := .ok, done := true, pos := .idle })) ∧
    (ok = false →
      (∀ outer, p = .cmd55Erase outer 0 →
        s.engineEvent = .next { x with code := .wPreCmd55, done := true, pos := .idle }) ∧
      (p = .acmd23 0 →
        s.engineEvent = .next { x with code := .wPreAcmd23, done := true, pos := .idle }))

/-- R175, after INIT's first lines (R173). SESSION INITIALIZING and ATTEMPTS 1; then, in each attempt, FAST 0 and one
CS(1), then `N_IDLE` idle bytes, at least 20, with the card deselected, before CMD0. That INIT's first lines are an
event of their own is log entry 7. -/
def Obligations.IdleClock : Prop :=
  (∀ s : State, s.pos = .initBegin →
    s.engineEvent =
      .next { s with session := .initializing, attempts := 1#3, pos := .initDeselect 1 }) ∧
  (∀ (s : State) (att : Nat) (answers rest : List Byte), DataInv s → s.pos = .initDeselect att →
    answers.length = s.cfg.nIdle.toNat → s.miso = answers ++ rest →
    20 ≤ s.cfg.nIdle.toNat ∧
    s.engineRun (1 + s.cfg.nIdle.toNat) =
      .next { s with
        fast := false, sdCsN := true, miso := rest,
        cardTrace := (answers.map fun b => CardEvent.xfer true 0xFF#8 b).reverse ++ .cs true :: s.cardTrace,
        pos := .select (.pass (.cmd0 att (s.cfg.nCmd0.toNat - 1))) })

/-- R100, R192 to R194, R197, R201, R202, R207. The three tokens the engine sends, where it sends them: START_BLOCK
and START_MULTI are followed by the request for the ring byte at TAIL, STOP_TRAN by the stuff byte or the busy poll.
The filler bytes around them are one 0xFF each, sent with the card selected, whose answer is ignored:
BEGIN_SESSION's gap byte, after which SES_BLOCKS is 0, SESSION is SESSION_OPEN and the operation has ended OK;
WRITE_BLOCK's gap byte, after which the token follows; END_SESSION's stuff byte, after which the busy poll follows.
That the read request rises with the token is log entry 8, that the register writes belong to the gap byte's event
log entry 7. -/
def Obligations.TokensSent : Prop :=
  ∀ s : State, DataInv s →
    (s.pos = .tokenBlock →
      exec .startBlock s =
        .next { s.answerTaken.xfer 0xFE#8 s.cardAnswer with memReq := some s.tail, pos := .memRead .block 0 }) ∧
    (s.pos = .tokenSegment →
      exec .startMulti s =
        .next { s.answerTaken.xfer 0xFC#8 s.cardAnswer with memReq := some s.tail, pos := .memRead .segment 0 }) ∧
    (s.pos = .tokenStop →
      exec .stopTran s =
        .next { s.answerTaken.xfer 0xFD#8 s.cardAnswer with
          pos := if s.cfg.stopSkip then .stuff else .busyPoll .stop (s.cfg.nBusy.toNat - 1) }) ∧
    (∀ (b : Byte) (rest : List Byte), ControlInv s → s.miso = b :: rest →
      let filled : State := { s with miso := rest, cardTrace := .xfer false 0xFF#8 b :: s.cardTrace }
      (s.pos = .gapSession →
        s.engineEvent =
          .next { filled with sesBlocks := 0#32, session := .sessionOpen, code := .ok, done := true, pos := .idle }) ∧
      (s.pos = .gapBlock → s.engineEvent = .next { filled with pos := .tokenBlock }) ∧
      (s.pos = .stuff → s.engineEvent = .next { filled with pos := .busyPoll .stop (s.cfg.nBusy.toNat - 1) }))

/-- R170. The token poll: 0xFE ends it and the payload follows; any other byte is recorded and read past, up to the
ceiling, where the operation fails with E_RD_TOKEN. A byte as the answer of the pending XFER is log entry 16. -/
def Obligations.TokenPoll : Prop :=
  ∀ (s : State) (left : Nat), s.pos = .tokenPoll left →
    exec .startBlock s =
      .next { s.xfer 0xFF#8 0xFE#8 with lastTok := 0xFE#8, pos := .readData 0 } ∧
    ∀ (b : Byte) (rest : List Byte), s.miso = b :: rest → b ≠ 0xFE#8 →
      s.engineEvent =
        .next { ({ s with miso := rest } : State).xfer 0xFF#8 b with
          lastTok := b,
          pos := if left = 0 then .deselect (.finish .eRdToken) else .tokenPoll (left - 1) }

/-- R102 and R171. The busy byte in a busy poll: the poll goes on, and at its ceiling the operation fails with the
code of its place, the session being left where one is open. A byte as the answer of the pending XFER is log entry
16. -/
def Obligations.BusyByte : Prop :=
  ∀ (s : State) (k : BusyKind) (left : Nat), s.pos = .busyPoll k left →
    exec .busy s =
      .next { s.xfer 0xFF#8 0x00#8 with
        pos :=
          if left = 0 then
            (match k with
             | .block => .deselect (.finish .eWrBusy)
             | .segment => .deselect (.leave .eSesBusy)
             | .stop => .deselect (.leave .eSesEndBusy))
          else .busyPoll k (left - 1) }

/-- R103, R165, R166, R171, R175. The idle byte: no response yet in a response poll, whichever it is, and an R1 of
0xFF at its ceiling; not busy in a busy poll, which any other byte than the busy byte 0x00 ends as well. A byte as
the answer of the pending XFER is log entry 16. -/
def Obligations.IdleByte : Prop :=
  ∀ s : State,
    (∀ x left, s.pos = .poll x (left + 1) →
      exec .idle s = .next { s.xfer 0xFF#8 0xFF#8 with pos := .poll x left }) ∧
    (∀ x, s.pos = .poll x 0 →
      exec .idle s = .next (({ s.xfer 0xFF#8 0xFF#8 with lastR1 := 0xFF#8 } : State).r1Done x 0xFF#8)) ∧
    (∀ left, s.pos = .busyPoll .block left →
      exec .idle s = .next { s.xfer 0xFF#8 0xFF#8 with pos := .deselect (.finish .ok) }) ∧
    (∀ left, s.pos = .busyPoll .segment left →
      exec .idle s = .next { s.xfer 0xFF#8 0xFF#8 with code := .ok, done := true, pos := .idle }) ∧
    (∀ left, s.pos = .busyPoll .stop left →
      exec .idle s = .next { s.xfer 0xFF#8 0xFF#8 with pos := .deselect (.leave .ok) }) ∧
    (∀ att left, s.pos = .initIdle att (left + 1) →
      exec .idle s = .next { s.xfer 0xFF#8 0xFF#8 with pos := .initIdle att left }) ∧
    (∀ (k : BusyKind) (left : Nat) (b : Byte) (rest : List Byte), s.pos = .busyPoll k left → s.miso = b :: rest →
      b ≠ 0x00#8 →
      let x := ({ s with miso := rest } : State).xfer 0xFF#8 b
      s.engineEvent =
        .next (match k with
          | .block => { x with pos := .deselect (.finish .ok) }
          | .segment => { x with code := .ok, done := true, pos := .idle }
          | .stop => { x with pos := .deselect (.leave .ok) }))

/-- R130, R172, R199, R208. An accepted data response advances the tail by one block before the busy poll, and for a
segment counts it; the whole byte goes to LAST_TOK. A byte as the answer of the pending XFER is log entry 16, the
old value that the TAIL_G crossing remembers log entry 11, the count of released blocks log entry 23. -/
def Obligations.DataResponseAccepted : Prop :=
  ∀ (s : State) (tok : Byte) (left : Nat), s.par.legal = true → tok &&& 0x1F#8 = 0x05#8 →
    let next := BitVec.ofNat 32 ((s.tailB.toNat + 1) % 2 ^ s.par.tb)
    (s.pos = .dresp .block left →
      exec (.drespAccepted tok) s =
        .next { s.xfer 0xFF#8 tok with
          lastTok := tok, tailB := next, tailG := bin2gray next, tailS := { s.tailS with old := some s.tailG },
          freed := s.freed + 1, pos := .busyPoll .block (s.cfg.nBusy.toNat - 1) }) ∧
    (s.pos = .dresp .segment left →
      exec (.drespAccepted tok) s =
        .next { s.xfer 0xFF#8 tok with
          lastTok := tok, tailB := next, tailG := bin2gray next, tailS := { s.tailS with old := some s.tailG },
          freed := s.freed + 1, sesBlocks := s.sesBlocks + 1#32,
          pos := .busyPoll .segment (s.cfg.nBusy.toNat - 1) })

/-- R172 and R208. The data responses that are not "accepted": WRITE_BLOCK ends with the code of what it saw,
WRITE_SEGMENT reads on up to its ceiling. The tail does not move. A byte as the answer of the pending XFER is log
entry 16. -/
def Obligations.DataResponseRejected : Prop :=
  ∀ (s : State) (left : Nat),
    (s.pos = .dresp .block left →
      (∀ tok : Byte, tok &&& 0x1F#8 = 0x0B#8 →
        exec (.drespCrcError tok) s =
          .next { s.xfer 0xFF#8 tok with lastTok := tok, pos := .deselect (.finish .eWrCrc) }) ∧
      (∀ tok : Byte, tok &&& 0x1F#8 = 0x0D#8 →
        exec (.drespWriteError tok) s =
          .next { s.xfer 0xFF#8 tok with lastTok := tok, pos := .deselect (.finish .eWrWrite) }) ∧
      (∀ (b : Byte) (rest : List Byte), s.miso = b :: rest →
        b &&& 0x1F#8 ≠ 0x05#8 → b &&& 0x1F#8 ≠ 0x0B#8 → b &&& 0x1F#8 ≠ 0x0D#8 →
        s.engineEvent =
          .next { ({ s with miso := rest } : State).xfer 0xFF#8 b with
            lastTok := b,
            pos :=
              if b ≠ 0xFF#8 then .deselect (.finish .eWrDrespOther)
              else if left = 0 then .deselect (.finish .eWrDrespTimeout)
              else .dresp .block (left - 1) })) ∧
    (s.pos = .dresp .segment left →
      (∀ tok : Byte, tok &&& 0x1F#8 ≠ 0x05#8 →
        let reads :=
          ({ s.xfer 0xFF#8 tok with
            lastTok := tok,
            pos := if left = 0 then .deselect (.leave .eSesDresp) else .dresp .segment (left - 1) } : State)
        (tok &&& 0x1F#8 = 0x0B#8 → exec (.drespCrcError tok) s = .next reads) ∧
        (tok &&& 0x1F#8 = 0x0D#8 → exec (.drespWriteError tok) s = .next reads) ∧
        (∀ rest, s.miso = tok :: rest →
          s.engineEvent = .next { reads with miso := rest })))

/-- R155. While the engine's next event is no XFER (in particular while no operation runs), a byte on the card port has no
effect; whenever it is one, the byte is the answer of that XFER (log entry 16). -/
def Obligations.BytesNeedAnXfer : Prop :=
  (∀ s : State, s.isBusy = false → s.nextTx = none) ∧
  (∀ (s : State) (tok : Byte), s.nextTx = none →
    ∀ i ∈ [Instr.busy, .idle, .startBlock, .startMulti, .stopTran, .drespAccepted tok, .drespCrcError tok,
        .drespWriteError tok], exec i s = .next s) ∧
  (∀ (s : State) (tok tx : Byte), s.nextTx = some tx →
    exec .busy s = .next ((s.xfer tx 0x00#8).received 0x00#8) ∧
    exec .idle s = .next ((s.xfer tx 0xFF#8).received 0xFF#8) ∧
    ∀ i ∈ [Instr.drespAccepted tok, .drespCrcError tok, .drespWriteError tok],
      exec i s = .next ((s.xfer tx tok).received tok))

/-- R189 and R190. From READ_BLOCK's first payload byte to its end: the 512 bytes after the start token are RDBUF, the next
two are RDCRC, first byte high, then the card is deselected, one byte is sent, and the operation ends OK. -/
def Obligations.ReadBlockData : Prop :=
  ∀ (s : State) (data rest : List Byte) (c0 c1 r : Byte),
    s.pos = .readData 0 → s.rdbuf.length = 512 → data.length = 512 → s.miso = data ++ c0 :: c1 :: r :: rest →
    s.engineRun 516 =
      .next { s with
        miso := rest, rdbuf := data, rdcrc := c0 ++ c1, sdCsN := true, sdMosi := true, sdSclk := false,
        cardTrace := CardEvent.xfer true 0xFF#8 r :: .cs true ::
          (((data ++ [c0, c1]).map fun b => CardEvent.xfer s.sdCsN 0xFF#8 b).reverse ++ s.cardTrace),
        code := .ok, done := true, pos := .idle }

/-- R197 and R207. A block write from its token to the data-response poll, with the producer quiet: one token, the
512 ring bytes at TAIL, TAIL+1, … in order, two filler bytes; nothing else changes. The request's place in the order
of events is log entry 8, the list of reads log entry 23. -/
def Obligations.BlockDataSent : Prop :=
  ∀ (s : State) (w : WriteKind) (answers rest : List Byte),
    DataInv s → s.pq = [] → s.rstP = false → answers.length = 515 → s.miso = answers ++ rest →
    s.pos = (match w with | .block => .tokenBlock | .segment => .tokenSegment) →
    let offsets := (List.range 512).map fun i => addMod s.par.n s.tail (BitVec.ofNat 32 i)
    let token := (match w with | .block => 0xFE#8 | .segment => 0xFC#8)
    let sent := token :: offsets.map s.ringByte ++ [0xFF#8, 0xFF#8]
    s.engineRun 1027 =
      .next { s with
        miso := rest, memReads := offsets.reverse ++ s.memReads,
        cardTrace := ((sent.zip answers).map fun p => CardEvent.xfer s.sdCsN p.1 p.2).reverse ++ s.cardTrace,
        pos := .dresp w (s.cfg.nDresp.toNat - 1) }

/-- R69, R70, R71. A pending engine read waits while the producer has a byte to write or is in reset; else it is
performed in one event and returns the byte last written at its offset. R255: in a fair run every pending read is
served, unless reset comes first. When a request rises and that it waits for the reset of clk_p is log entry 8; the
free value of a byte never written is log entry 4; that fairness is a premise here and assumed nowhere is log entry
28. -/
def Obligations.MemReadServed : Prop :=
  (∀ (event : Nat → Event) (run : Nat → State) (k : Nat) (w : WriteKind) (i : Nat) (off : Word),
    FairRun event run → (run k).pos = .memRead w i → (run k).memReq = some off →
    ∃ j, k ≤ j ∧
      (event j = .resetAssert ∨
        (event j = .engine ∧ (run j).pos = .memRead w i ∧ (run (j + 1)).memReads = off :: (run j).memReads ∧
          (run (j + 1)).unservedRead = none ∧ (run (j + 1)).pos = .payload w i ((run j).ringByte off)))) ∧
  ∀ (s : State) (w : WriteKind) (i : Nat) (off : Word), s.pos = .memRead w i → s.memReq = some off →
    (s.pq ≠ [] ∨ s.rstP = true → s.engineEvent = .next s) ∧
    (s.pq = [] → s.rstP = false → ∀ b, Memory.read s.mem off.toNat = some b →
      s.engineEvent =
        .next { s with
          memReq := none, mport := { ceN := true, weN := true, dqInput := true }, memReads := off :: s.memReads,
          pos := .payload w i b }) ∧
    (s.pq = [] → s.rstP = false → Memory.read s.mem off.toNat = none →
      s.engineEvent =
        .next { s with
          memReq := none, mport := { ceN := true, weN := true, dqInput := true }, memReads := off :: s.memReads,
          pos := .payload w i (Config.ringByte off.toNat) })

/-! ### The producer and the ring -/

/-- R120, R121, R123, R211, R78. A SAMPLE event: it arms the marker whatever the gating; a disabled or frozen
producer ignores it; a busy one loses it and sets P_LOST; else its two bytes are queued in the order of
SAMPLE_LSB_FIRST. A clk_p cycle without an event arms the marker exactly when its `p_sync` is 0, and does nothing
else. The old value kept for the P_LOST crossing is log entry 11, that such a cycle is an event log entry 10. -/
def Obligations.SampleEvent : Prop :=
  (∀ s : State,
    s.takeEvent (.producerCycle false) = .next { s with markArmed := true } ∧
    s.takeEvent (.producerCycle true) = .next s) ∧
  ∀ (s : State) (v : BitVec 16),
    (s.ovf = true ∨ s.fatP = true ∨ s.penP = false →
      exec (.sample v) s = .next { s with markArmed := true }) ∧
    (s.ovf = false → s.fatP = false → s.penP = true → s.pq ≠ [] →
      exec (.sample v) s =
        .next { s with
          markArmed := true, pLost := true,
          plostS := if s.pLost then s.plostS else { s.plostS with old := some false } }) ∧
    (s.ovf = false → s.fatP = false → s.penP = true → s.pq = [] →
      exec (.sample v) s =
        .next { s with
          markArmed := true,
          pq := if s.par.lsbFirst then [v.extractLsb' 0 8, v.extractLsb' 8 8]
            else [v.extractLsb' 8 8, v.extractLsb' 0 8] })

/-- R120, R121, R212, R213. A SYNC event: gated as a sample; accepted it queues the eight marker bytes and disarms,
or, not armed, does nothing; its p_sample is ignored. The old value kept for the P_LOST crossing is log entry 11. -/
def Obligations.SyncEvent : Prop :=
  (∀ w : BitVec 17, w.getLsbD 16 = true → decode .pevent (w.setWidth 32) = .instr .sync) ∧
  ∀ s : State,
    (s.ovf = true ∨ s.fatP = true ∨ s.penP = false → exec .sync s = .next s) ∧
    (s.ovf = false → s.fatP = false → s.penP = true → s.pq ≠ [] →
      exec .sync s =
        .next { s with
          pLost := true, plostS := if s.pLost then s.plostS else { s.plostS with old := some false } }) ∧
    (s.ovf = false → s.fatP = false → s.penP = true → s.pq = [] → s.markArmed = true →
      exec .sync s =
        .next { s with
          pq := [0xFF#8, 0xFF#8, 0x00#8, 0x00#8, 0xFF#8, 0xFF#8, 0x00#8, 0x00#8], markArmed := false }) ∧
    (s.ovf = false → s.fatP = false → s.penP = true → s.pq = [] → s.markArmed = false →
      exec .sync s = .next s)

/-- R122, R125, R126. P_WRITE: the byte goes to offset HEAD and to no other, HEAD moves by one modulo CAP with its gray copy,
overflow is raised exactly when the new HEAD is TAIL_P and then empties the queue; a frozen producer only empties its queue;
with an empty queue nothing happens. -/
def Obligations.ProducerWrite : Prop :=
  ∀ s : State,
    (s.pq = [] → s.takeEvent .producerWrite = .next s) ∧
    (s.ovf = true ∨ s.fatP = true → s.takeEvent .producerWrite = .next { s with pq := [] }) ∧
    (∀ (b : Byte) (rest : List Byte), DataInv s → s.ovf = false → s.fatP = false → s.pq = b :: rest →
      let head' := BitVec.ofNat 32 ((s.head.toNat + 1) % s.par.cap)
      ∃ t : State, s.takeEvent .producerWrite = .next t ∧
        Memory.read t.mem s.head.toNat = some b ∧
        (∀ k, k ≠ s.head.toNat → Memory.read t.mem k = Memory.read s.mem k) ∧
        t.head = head' ∧ t.headG = bin2gray head' ∧
        (head' = s.tailP → t.ovf = true ∧ t.pq = []) ∧
        (head' ≠ s.tailP → t.ovf = false ∧ t.pq = rest) ∧
        t.headS.stages = s.headS.stages ∧ t.ovfS.stages = s.ovfS.stages ∧
        ({ t with
          mem := s.mem, head := s.head, headG := s.headG, ovf := s.ovf, pq := s.pq, headS := s.headS,
          ovfS := s.ovfS, ringLog := s.ringLog } : State) = s)

/-- R125 and R139. With `F = H* - 512 T'`, a P_WRITE raises OVF exactly when `F` reaches CAP; the true count of
unread bytes is at most `F`, so it cannot reach CAP unseen. The counts are log entry 23. -/
def Obligations.OverflowAtCapacity : Prop :=
  ∀ (s : State) (hs ts : List Nat) (b : Byte) (rest : List Byte),
    DataInv s → RingCounts s hs ts → s.ovf = false → s.fatP = false → s.pq = b :: rest →
    ∃ t : State, s.takeEvent .producerWrite = .next t ∧ t.written = s.written + 1 ∧
      (t.ovf = true ↔ t.written - 512 * ts.getLastD 0 = s.par.cap) ∧
      t.written - 512 * t.freed ≤ t.written - 512 * ts.getLastD 0 ∧
      (t.written - 512 * t.freed = s.par.cap → t.ovf = true)

/-- R83 and R85. The byte the engine reads as payload byte `i` of its block number `k` (the blocks released so far)
is byte `512 k + i` of the producer's stream, from ring offset `(512 k + i) mod CAP`. The list of bytes written and
the count of blocks released are log entry 23. -/
def Obligations.StreamInOrder : Prop :=
  ∀ (s : State) (w : WriteKind) (i : Nat),
    DataInv s → RingInv s → s.pos = .memRead w i → s.pq = [] → s.rstP = false →
    ∃ b : Byte, s.streamByte (512 * s.freed + i) = some b ∧
      s.engineEvent =
        .next { s with
          memReq := none,
          memReads := BitVec.ofNat 32 ((512 * s.freed + i) % s.par.cap) :: s.memReads,
          pos := .payload w i b }

/-- R128, R132, R138. PENDING is `HEAD_C - TAIL` modulo CAP, BLOCK_READY compares it with 512, it is below CAP and
never exceeds the true occupancy, which is at most CAP - 1 while OVF is 0; an available block has all been written.
The counts are log entry 23. -/
def Obligations.PendingConservative : Prop :=
  ∀ (s : State) (hs ts : List Nat), DataInv s → RingCounts s hs ts →
    s.pending.toNat = (hs.getLastD 0 - 512 * s.freed) % s.par.cap ∧
    (s.blockReady = true ↔ 512 ≤ s.pending.toNat) ∧
    s.pending.toNat < s.par.cap ∧ s.pending.toNat ≤ s.written - 512 * s.freed ∧
    (s.ovf = false → s.written - 512 * s.freed ≤ s.par.cap - 1) ∧
    (s.blockReady = true → 512 * s.freed + 512 ≤ s.written)

/-- R130 and R131. Outside reset the tail moves only when the card accepts a block in a data-response poll, by one block
modulo `2^TB`, its gray copy with it. -/
def Obligations.TailMovesOnAcceptance : Prop :=
  ∀ s t : State, step s = .next t → s.nextEvent ≠ .resetAssert → t.tailB ≠ s.tailB →
    s.nextEvent = .engine ∧ (∃ w left, s.pos = .dresp w left) ∧ t.lastTok &&& 0x1F#8 = 0x05#8 ∧
    t.tailB = BitVec.ofNat 32 ((s.tailB.toNat + 1) % 2 ^ s.par.tb) ∧ t.tailG = bin2gray t.tailB

/-- R20 and R231. Each domain writes only its own registers: an event of clk_p leaves every clk_c register as it is,
an event of clk_c every clk_p register and the ring memory. Which events belong to which domain is log entry 2, that
`h_rdata` keeps its value between reads log entry 30. -/
def Obligations.DomainsSeparate : Prop :=
  ∀ (s t : State) (e : Event), s.runEvent e = .next t →
    (e.inProducerDomain = true →
      t.tailB = s.tailB ∧ t.tailG = s.tailG ∧ t.headS.stages = s.headS.stages ∧
      t.ovfS.stages = s.ovfS.stages ∧ t.plostS.stages = s.plostS.stages ∧ t.fatalC = s.fatalC ∧
      t.session = s.session ∧ t.fast = s.fast ∧ t.sdCsN = s.sdCsN ∧ t.sdMosi = s.sdMosi ∧
      t.sdSclk = s.sdSclk ∧ t.pos = s.pos ∧ t.opArg = s.opArg ∧ t.ctrl = s.ctrl ∧ t.arg = s.arg ∧
      t.done = s.done ∧ t.cmdLost = s.cmdLost ∧ t.code = s.code ∧ t.ccs = s.ccs ∧
      t.attempts = s.attempts ∧ t.lastR1 = s.lastR1 ∧ t.lastTok = s.lastTok ∧ t.ocr = s.ocr ∧ t.r7 = s.r7 ∧
      t.sesBlocks = s.sesBlocks ∧ t.rdcrc = s.rdcrc ∧ t.cfg = s.cfg ∧ t.rdbuf = s.rdbuf ∧
      t.hRdata = s.hRdata ∧ t.cardTrace = s.cardTrace ∧ t.par = s.par) ∧
    (e.inConsumerDomain = true →
      t.head = s.head ∧ t.headG = s.headG ∧ t.tailS.stages = s.tailS.stages ∧ t.ovf = s.ovf ∧
      t.penS.stages = s.penS.stages ∧ t.fatS.stages = s.fatS.stages ∧ t.pLost = s.pLost ∧ t.pq = s.pq ∧
      t.markArmed = s.markArmed ∧ t.mem = s.mem ∧ t.par = s.par)

/-- R136. A synchronizer step shifts the chain and captures the source's value or, where no step came since the
source's last change, the value before it; the six crossings have the sources the rule lists, and a step changes only
its own chain. The value before the latest change is log entry 11, a torn capture log entry 12. -/
def Obligations.SynchronizerStep : Prop :=
  (∀ (s : State) (x : Crossing) (k : Capture) (t : State), s.sync x k = some t →
    (x = .head →
      t = { s with headS := t.headS } ∧ t.headS.old = none ∧
      ∃ v, t.headS.stages = (v :: s.headS.stages).dropLast ∧ (v = s.headG ∨ s.headS.old = some v)) ∧
    (x = .tail →
      t = { s with tailS := t.tailS } ∧ t.tailS.old = none ∧
      ∃ v, t.tailS.stages = (v :: s.tailS.stages).dropLast ∧ (v = s.tailG ∨ s.tailS.old = some v)) ∧
    (x = .pen →
      t = { s with penS := t.penS } ∧ t.penS.old = none ∧
      ∃ v, t.penS.stages = (v :: s.penS.stages).dropLast ∧ (v = s.ctrl.prodEn ∨ s.penS.old = some v)) ∧
    (x = .fat →
      t = { s with fatS := t.fatS } ∧ t.fatS.old = none ∧
      ∃ v, t.fatS.stages = (v :: s.fatS.stages).dropLast ∧
        (v = decide (s.fatalC ≠ .none) ∨ s.fatS.old = some v)) ∧
    (x = .ovf →
      t = { s with ovfS := t.ovfS } ∧ t.ovfS.old = none ∧
      ∃ v, t.ovfS.stages = (v :: s.ovfS.stages).dropLast ∧ (v = s.ovf ∨ s.ovfS.old = some v)) ∧
    (x = .plost →
      t = { s with plostS := t.plostS } ∧ t.plostS.old = none ∧
      ∃ v, t.plostS.stages = (v :: s.plostS.stages).dropLast ∧ (v = s.pLost ∨ s.plostS.old = some v))) ∧
  (∀ (c : Chain Word) (cur : Word),
    c.sync id cur .current = some { stages := (cur :: c.stages).dropLast, old := none } ∧
    ∀ o, c.old = some o →
      c.sync id cur .previous = some { stages := (o :: c.stages).dropLast, old := none })

/-- R140 and R252. Once its source stops changing, every stage of a chain of `S` flops, of a pointer or of a flag,
holds the source's value after at most `S + 1` destination edges, whatever each edge captures; after `S` where no
edge can capture the value before the change any more (log entry 11); and a settled chain stays settled. -/
def Obligations.SynchronizerSettles : Prop :=
  ∀ (α : Type) (bitsOf : α → Word) (c c' : Chain α) (cur : α) (captures : List Capture),
    captures.foldlM (fun d k => d.sync bitsOf cur k) c = some c' →
    c.stages.length + 1 ≤ captures.length ∨ (c.old = none ∧ c.stages.length ≤ captures.length) ∨
      (c.old = none ∧ ∀ v ∈ c.stages, v = cur) →
    c'.stages.length = c.stages.length ∧ ∀ v ∈ c'.stages, v = cur

/-! ### Invariants and termination -/

/-- Every step keeps the data invariant. -/
def Obligations.DataInvKept : Prop :=
  ∀ s t : State, DataInv s → step s = .next t → DataInv t

/-- Every step keeps the control invariant: chip-select, SESSION, FAST, ATTEMPTS, DONE and FATAL_C fit the engine's
position (R155, R173, R183, R195, R148). -/
def Obligations.ControlInvKept : Prop :=
  ∀ s t : State, DataInv s → ControlInv s → step s = .next t → ControlInv t

/-- Every step keeps the ring invariant: the crossed cursors are monotone earlier counts, the occupancy stays below CAP until
overflow, a running block write owns a whole written block, and the ring holds the last CAP bytes of the stream (R132, R137,
R139, R83, R85). -/
def Obligations.RingInvKept : Prop :=
  ∀ s t : State, DataInv s → RingInv s → step s = .next t → RingInv t

/-- R254. At its start an operation may make at most its table's number of XFERs, and whatever any agent does while it runs,
the XFERs made and still allowed never grow. -/
def Obligations.XfersBounded : Prop :=
  (∀ (s : State) (op : HostOp), DataInv s →
    (s.start op).cfg.xfersLeft (s.start op).pos ≤ s.cfg.operationBound op) ∧
  (∀ s t : State, DataInv s → ControlInv s → s.isBusy = true → s.nextEvent ≠ .resetAssert → step s = .next t →
    xferCount t.cardTrace + t.cfg.xfersLeft t.pos ≤ xferCount s.cardTrace + s.cfg.xfersLeft s.pos)

/-- R151 and R254. An operation never hangs: with the producer quiet, whatever the card answers, at most `rank` engine events
bring it to its completion. -/
def Obligations.OperationTerminates : Prop :=
  ∀ s : State, DataInv s → ControlInv s → s.isBusy = true → s.pq = [] → s.rstP = false →
    ∃ (k : Nat) (t : State), k ≤ s.rank ∧ s.engineRun k = .next t ∧ t.isBusy = false ∧ t.done = true

end ObligationStatements
end

