-- ==== Sys2Proof/Laws/Memory.lean ====
section
/-!
SUPPORT. The laws of the ring memory: a read after a write to the same offset gives the byte written, other offsets keep
their byte, and a write keeps the canonical form.
-/

namespace Sys2Proof.Machine

@[simp] theorem Memory.read_nil (k : Nat) : Memory.read [] k = none := rfl

theorem Memory.wf_nil : Memory.wf [] := List.Pairwise.nil

/-- Where a write puts its offset: among the offsets there were, or in a new cell. -/
theorem Memory.mem_write {m : Memory} {k : Nat} {v : Byte} {c : Host.Cell} (h : c ∈ Memory.write m k v) :
    c = (k, v) ∨ c ∈ m := by
  induction m with
  | nil => simpa [Memory.write] using h
  | cons a m ih =>
    obtain ⟨a, b⟩ := a
    simp only [Memory.write] at h
    split at h
    · simpa using h
    · split at h <;> simp only [List.mem_cons] at h ⊢ <;> grind

/-- A write keeps the canonical form. -/
theorem Memory.write_wf {m : Memory} (h : Memory.wf m) (k : Nat) (v : Byte) : Memory.wf (Memory.write m k v) := by
  induction m with
  | nil => simp [Memory.write, Memory.wf]
  | cons a m ih =>
    obtain ⟨a, b⟩ := a
    have ⟨hlt, hm⟩ := List.pairwise_cons.mp h
    unfold Memory.write
    split
    · rename_i hk
      exact List.pairwise_cons.mpr ⟨by
        intro c hc
        rcases List.mem_cons.mp hc with rfl | hc
        · exact hk
        · exact Nat.lt_trans hk (hlt c hc), h⟩
    · split
      · rename_i hk
        subst hk
        exact List.pairwise_cons.mpr ⟨hlt, hm⟩
      · refine List.pairwise_cons.mpr ⟨fun c hc => ?_, ih hm⟩
        rcases Memory.mem_write hc with rfl | hc
        · simp only; omega
        · exact hlt c hc

/-- A write keeps every offset below a bound that its own offset is below. -/
theorem Memory.write_offsets {m : Memory} {k n : Nat} (v : Byte) (h : ∀ c ∈ m, c.1 < n) (hk : k < n) :
    ∀ c ∈ Memory.write m k v, c.1 < n := by
  intro c hc
  rcases Memory.mem_write hc with rfl | hc
  · exact hk
  · exact h c hc

/-- Read after write, same offset. -/
@[simp] theorem Memory.read_write_same (m : Memory) (k : Nat) (v : Byte) :
    Memory.read (Memory.write m k v) k = some v := by
  induction m with
  | nil => simp [Memory.write, Memory.read]
  | cons a m ih =>
    obtain ⟨a, b⟩ := a
    unfold Memory.write
    split
    · simp [Memory.read]
    · split
      · simp [Memory.read]
      · simp [Memory.read, *]

/-- An offset below every listed one is not listed. -/
theorem Memory.read_below {m : Memory} {k : Nat} (h : ∀ c ∈ m, k < c.1) : Memory.read m k = none := by
  induction m with
  | nil => rfl
  | cons a m ih =>
    obtain ⟨a, b⟩ := a
    have ha := h (a, b) (List.mem_cons_self ..)
    simp only at ha
    simp only [Memory.read, if_neg (show ¬ a = k by omega)]
    exact ih fun c hc => h c (List.mem_cons_of_mem _ hc)

/-- Read after write, another offset. -/
theorem Memory.read_write_other {m : Memory} {k j : Nat} (v : Byte) (hj : j ≠ k) :
    Memory.read (Memory.write m k v) j = Memory.read m j := by
  induction m with
  | nil => simp [Memory.write, Memory.read, Ne.symm hj]
  | cons a m ih =>
    obtain ⟨a, b⟩ := a
    unfold Memory.write
    split
    · simp [Memory.read, Ne.symm hj]
    · split
      · rename_i hak
        subst hak
        simp [Memory.read, Ne.symm hj]
      · simp [Memory.read, ih]

/-- A written byte keeps the memory a function of what can be read: equal memories in canonical form read alike. -/
theorem Memory.read_mem {m : Memory} {k : Nat} {v : Byte} (h : Memory.read m k = some v) : (k, v) ∈ m := by
  induction m with
  | nil => simp at h
  | cons a m ih =>
    obtain ⟨a, b⟩ := a
    simp only [Memory.read] at h
    split at h
    · simp_all
    · exact List.mem_cons_of_mem _ (ih h)

end Sys2Proof.Machine
end

