-- ==== Sys2Proof/Laws/Pointers.lean ====
section
/-!
SUPPORT. Pointer arithmetic and synchronizer chains: what `+_N`, `-_N`, the gray conversions, a capture and a
chain step are as numbers and lists.
-/

namespace Sys2Proof.Machine

theorem lowMask_toNat {w : Nat} (h : w ≤ 32) : (lowMask w).toNat = 2 ^ w - 1 := by
  have : 2 ^ w ≤ 2 ^ 32 := Nat.pow_le_pow_right (by decide) h
  have : 0 < 2 ^ w := Nat.two_pow_pos w
  simp only [lowMask, BitVec.toNat_ofNat]
  exact Nat.mod_eq_of_lt (by omega)

theorem and_lowMask_toNat {w : Nat} (h : w ≤ 32) (a : Word) : (a &&& lowMask w).toNat = a.toNat % 2 ^ w := by
  rw [BitVec.toNat_and, lowMask_toNat h, Nat.and_two_pow_sub_one_eq_mod]

/-- `a +_w b`. -/
theorem addMod_toNat {w : Nat} (h : w ≤ 32) (a b : Word) :
    (addMod w a b).toNat = (a.toNat + b.toNat) % 2 ^ w := by
  rw [addMod, and_lowMask_toNat h, BitVec.toNat_add]
  exact Nat.mod_mod_of_dvd _ (pow_dvd_pow 2 h)

/-- `a -_w b` where `b ≤ a`, both in the width. -/
theorem subMod_toNat_of_le {w : Nat} (h : w ≤ 32) {a b : Word} (hb : b.toNat ≤ a.toNat) (ha : a.toNat < 2 ^ w) :
    (subMod w a b).toNat = a.toNat - b.toNat := by
  rw [subMod, and_lowMask_toNat h, BitVec.toNat_sub_of_le (by rw [BitVec.le_def]; exact hb)]
  exact Nat.mod_eq_of_lt (by omega)

/-- `a -_w b` in general. -/
theorem subMod_toNat {w : Nat} (h : w ≤ 32) (a b : Word) :
    (subMod w a b).toNat = (2 ^ 32 - b.toNat + a.toNat) % 2 ^ w := by
  rw [subMod, and_lowMask_toNat h, BitVec.toNat_sub]
  exact Nat.mod_mod_of_dvd _ (pow_dvd_pow 2 h)

/-- A prefix of the xor that `gray2bin` is, on the gray code of `b`. -/
theorem grayPrefix_bin2gray (k : Nat) (b : Word) : grayPrefix k (bin2gray b) = b ^^^ (b >>> (k + 1)) := by
  induction k with
  | zero => rfl
  | succ k ih =>
    simp only [grayPrefix, ih]
    ext i hi
    simp only [bin2gray]
    simp only [BitVec.getElem_xor, BitVec.getElem_ushiftRight, BitVec.getLsbD_xor, BitVec.getLsbD_ushiftRight]
    rw [show 1 + (k + 1 + i) = k + 1 + 1 + i by omega]
    cases b[i] <;> cases b.getLsbD (k + 1 + i) <;> cases b.getLsbD (k + 1 + 1 + i) <;> rfl

@[simp] theorem grayPrefix_zero (k : Nat) : grayPrefix k 0#32 = 0#32 := by
  induction k with
  | zero => rfl
  | succ k ih => simp [grayPrefix, ih]

@[simp] theorem gray2bin_zero (w : Nat) : gray2bin w 0#32 = 0#32 := by simp [gray2bin]

@[simp] theorem bin2gray_zero : bin2gray 0#32 = 0#32 := by decide

@[simp] theorem Chain.changed_stages {α : Type} (c : Chain α) (v : α) : (c.changed v).stages = c.stages := rfl

@[simp] theorem Chain.changed_old {α : Type} (c : Chain α) (v : α) : (c.changed v).old = some v := rfl

@[simp] theorem Chain.changed_last {α : Type} (c : Chain α) (v d : α) : (c.changed v).last d = c.last d := rfl

@[simp] theorem Chain.shift_stages {α : Type} (c : Chain α) (v : α) : (c.shift v).stages = (v :: c.stages).dropLast :=
  rfl

@[simp] theorem Chain.shift_old {α : Type} (c : Chain α) (v : α) : (c.shift v).old = none := rfl

theorem Chain.shift_length {α : Type} (c : Chain α) (v : α) : (c.shift v).stages.length = c.stages.length := by
  simp

/-- A capture is the source's value, or the one it held before its latest change (40_ring_buffer.md R136). -/
theorem Chain.capture_cases {α : Type} {c : Chain α} {bitsOf : α → Word} {cur v : α} {k : Capture}
    (h : c.capture bitsOf cur k = some v) : v = cur ∨ c.old = some v := by
  unfold Chain.capture at h
  cases k with
  | current => simp_all
  | previous => cases ho : c.old <;> simp_all
  | bits w =>
    simp only at h
    split at h
    · simp_all
    · cases ho : c.old with
      | none => simp_all
      | some o =>
        simp only [ho] at h
        split at h <;> simp_all

/-- A capture whose bits the outside world does not name is never torn. -/
theorem Chain.capture_isSome {α : Type} (c : Chain α) (bitsOf : α → Word) (cur : α) {k : Capture}
    (h : ∀ v, k ≠ .bits v) : (c.capture bitsOf cur k).isSome = true := by
  cases k <;> simp_all [Chain.capture]

/-- Everything a synchronizer step does to its chain. -/
theorem Chain.sync_cases {α : Type} {c d : Chain α} {bitsOf : α → Word} {cur : α} {k : Capture}
    (h : c.sync bitsOf cur k = some d) : ∃ v, d = c.shift v ∧ (v = cur ∨ c.old = some v) := by
  unfold Chain.sync at h
  cases hc : c.capture bitsOf cur k with
  | none => simp [hc] at h
  | some v => exact ⟨v, by simpa [hc, eq_comm] using h, Chain.capture_cases hc⟩

/-- Everything a synchronizer step does to the state: one chain takes one step. -/
theorem State.sync_cases {s t : State} {x : Crossing} {k : Capture} (h : s.sync x k = some t) :
    (∃ c, x = .head ∧ s.headS.sync id s.headG k = some c ∧ t = { s with headS := c }) ∨
    (∃ c, x = .tail ∧ s.tailS.sync id s.tailG k = some c ∧ t = { s with tailS := c }) ∨
    (∃ c, x = .pen ∧ s.penS.sync bitWord s.ctrl.prodEn k = some c ∧ t = { s with penS := c }) ∨
    (∃ c, x = .fat ∧ s.fatS.sync bitWord s.fatalC.isSet k = some c ∧ t = { s with fatS := c }) ∨
    (∃ c, x = .ovf ∧ s.ovfS.sync bitWord s.ovf k = some c ∧ t = { s with ovfS := c }) ∨
    (∃ c, x = .plost ∧ s.plostS.sync bitWord s.pLost k = some c ∧ t = { s with plostS := c }) := by
  cases x <;> simp only [State.sync, Option.map_eq_some_iff] at h <;> obtain ⟨c, hc, rfl⟩ := h <;> simp [hc]

/-- A chain of equal stages shows that value. -/
theorem Chain.const_last {α : Type} {n : Nat} (h : 0 < n) (v d : α) : (Chain.const n v).last d = v := by
  cases n with
  | zero => omega
  | succ n => simp [Chain.const, Chain.last, List.getLastD_eq_getLast?, List.getLast?_replicate]

/-! ### The ring's geometry -/

/-- The ranges of a legal build. -/
theorem Params.legal_iff (p : Params) : p.legal = true ↔ 10 ≤ p.n ∧ p.n ≤ 32 ∧ 2 ≤ p.s ∧ p.s ≤ 15 := by
  simp only [Params.legal, Bool.and_eq_true, decide_eq_true_eq]
  omega

/-- The ring is `2^TB` blocks. -/
theorem Params.cap_eq {p : Params} (h : p.legal = true) : p.cap = 512 * 2 ^ p.tb := by
  have := (Params.legal_iff p).mp h
  have h9 : p.n = 9 + p.tb := by simp only [Params.tb]; omega
  rw [Params.cap, h9, Nat.pow_add]

theorem Params.two_pow_tb_le {p : Params} (h : p.legal = true) : 2 ^ p.tb ≤ 2 ^ 23 := by
  have := (Params.legal_iff p).mp h
  exact Nat.pow_le_pow_right (by decide) (by simp only [Params.tb]; omega)

/-- `TAIL` as a byte offset. -/
theorem State.tail_toNat {s : State} (hl : s.par.legal = true) (h : s.tailB.toNat < 2 ^ s.par.tb) :
    s.tail.toNat = 512 * s.tailB.toNat := by
  have := Params.two_pow_tb_le hl
  simp only [State.tail, BitVec.toNat_shiftLeft, Nat.shiftLeft_eq]
  omega

theorem State.tail_lt {s : State} (hl : s.par.legal = true) (h : s.tailB.toNat < 2 ^ s.par.tb) :
    s.tail.toNat < s.par.cap := by
  rw [State.tail_toNat hl h, Params.cap_eq hl]
  omega

/-- `TAIL +_N i`. -/
theorem State.tail_add_toNat {s : State} (hl : s.par.legal = true) (h : s.tailB.toNat < 2 ^ s.par.tb) {i : Nat}
    (hi : i < 512) : (addMod s.par.n s.tail (BitVec.ofNat 32 i)).toNat = 512 * s.tailB.toNat + i := by
  have hn := (Params.legal_iff _).mp hl
  have hc := Params.cap_eq hl
  rw [addMod_toNat hn.2.1, State.tail_toNat hl h, BitVec.toNat_ofNat, Nat.mod_eq_of_lt (show i < 2 ^ 32 by omega)]
  exact Nat.mod_eq_of_lt (by rw [Params.cap] at hc; omega)

theorem State.tail_add_zero {s : State} (hl : s.par.legal = true) (h : s.tailB.toNat < 2 ^ s.par.tb) :
    addMod s.par.n s.tail (BitVec.ofNat 32 0) = s.tail := by
  apply BitVec.eq_of_toNat_eq
  rw [State.tail_add_toNat hl h (by decide), State.tail_toNat hl h]
  rfl

/-- `a +_w 1` as a number. -/
theorem addMod_one {w : Nat} (h : w ≤ 32) (a : Word) : addMod w a 1#32 = BitVec.ofNat 32 ((a.toNat + 1) % 2 ^ w) := by
  apply BitVec.eq_of_toNat_eq
  have h1 : (a.toNat + 1) % 2 ^ w < 2 ^ 32 :=
    Nat.lt_of_lt_of_le (Nat.mod_lt _ (Nat.two_pow_pos w)) (Nat.pow_le_pow_right (by decide) h)
  rw [addMod_toNat h]
  simp only [BitVec.toNat_ofNat]
  rw [Nat.mod_eq_of_lt h1]

/-- A chain step stops exactly on a torn capture: bits that are neither the source's nor those it held before its latest
change (40_ring_buffer.md R136, 93_implementation_defined.md U18). -/
theorem Chain.sync_none_iff {α : Type} (c : Chain α) (bitsOf : α → Word) (cur : α) (k : Capture) :
    c.sync bitsOf cur k = none ↔
      ∃ v, k = .bits v ∧ v ≠ bitsOf cur ∧ ∀ o, c.old = some o → v ≠ bitsOf o := by
  cases k with
  | current => simp [Chain.sync, Chain.capture]
  | previous => simp [Chain.sync, Chain.capture]
  | bits v =>
    unfold Chain.sync Chain.capture
    by_cases hc : bitsOf cur = v
    · simp [hc, eq_comm]
    · have hc' : v ≠ bitsOf cur := fun h => hc h.symm
      cases ho : c.old with
      | none => simp [hc, hc']
      | some o =>
        by_cases hb : bitsOf o = v
        · simp [hc, hb]
        · have hb' : v ≠ bitsOf o := fun h => hb h.symm
          simp [hc, hb, hc', hb']

end Sys2Proof.Machine
end

