-- ==== Sys2Proof/Laws/State.lean ====
section
/-!
SUPPORT. For every named update of the state, what each field holds afterwards: one simp lemma an update, a
conjunction that simp takes apart field by field. Fields an update sets under a condition are left to its own lemmas in
Laws/Ops.lean.
-/

namespace Sys2Proof.Machine

@[simp] theorem State.goto_fields (s : State) (p : Pos) :
    (s.goto p).par = s.par ∧ (s.goto p).agenda = s.agenda ∧ (s.goto p).miso = s.miso ∧ (s.goto p).draws = s.draws ∧
    (s.goto p).host = s.host ∧ (s.goto p).rstP = s.rstP ∧ (s.goto p).rstC = s.rstC ∧ (s.goto p).head = s.head ∧
    (s.goto p).headG = s.headG ∧ (s.goto p).tailS = s.tailS ∧ (s.goto p).ovf = s.ovf ∧ (s.goto p).penS = s.penS ∧
    (s.goto p).fatS = s.fatS ∧ (s.goto p).pLost = s.pLost ∧ (s.goto p).pq = s.pq ∧
    (s.goto p).markArmed = s.markArmed ∧ (s.goto p).mport = s.mport ∧ (s.goto p).memReq = s.memReq ∧
    (s.goto p).tailB = s.tailB ∧ (s.goto p).tailG = s.tailG ∧ (s.goto p).headS = s.headS ∧ (s.goto p).ovfS = s.ovfS ∧
    (s.goto p).plostS = s.plostS ∧ (s.goto p).fatalC = s.fatalC ∧ (s.goto p).session = s.session ∧
    (s.goto p).fast = s.fast ∧ (s.goto p).sdCsN = s.sdCsN ∧ (s.goto p).sdMosi = s.sdMosi ∧
    (s.goto p).sdSclk = s.sdSclk ∧ (s.goto p).pos = p ∧ (s.goto p).opArg = s.opArg ∧ (s.goto p).ctrl = s.ctrl ∧
    (s.goto p).arg = s.arg ∧ (s.goto p).done = s.done ∧ (s.goto p).cmdLost = s.cmdLost ∧ (s.goto p).code = s.code ∧
    (s.goto p).ccs = s.ccs ∧ (s.goto p).attempts = s.attempts ∧ (s.goto p).lastR1 = s.lastR1 ∧
    (s.goto p).lastTok = s.lastTok ∧ (s.goto p).ocr = s.ocr ∧ (s.goto p).r7 = s.r7 ∧
    (s.goto p).sesBlocks = s.sesBlocks ∧ (s.goto p).rdcrc = s.rdcrc ∧ (s.goto p).cfg = s.cfg ∧
    (s.goto p).rdbuf = s.rdbuf ∧ (s.goto p).hRdata = s.hRdata ∧ (s.goto p).blink = s.blink ∧ (s.goto p).mem = s.mem ∧
    (s.goto p).cardTrace = s.cardTrace ∧ (s.goto p).memReads = s.memReads ∧ (s.goto p).ringLog = s.ringLog ∧
    (s.goto p).freed = s.freed := by
  refine
    ⟨rfl, rfl, rfl, rfl, rfl, rfl, rfl, rfl, rfl, rfl, rfl, rfl, rfl, rfl, rfl, rfl, rfl, rfl, rfl, rfl, rfl, rfl,
    rfl, rfl, rfl, rfl, rfl, rfl, rfl, rfl, rfl, rfl, rfl, rfl, rfl, rfl, rfl, rfl, rfl, rfl, rfl, rfl, rfl, rfl, rfl,
    rfl, rfl, rfl, rfl, rfl, rfl, rfl, rfl⟩

@[simp] theorem State.setCs_fields (s : State) (v : Bool) :
    (s.setCs v).par = s.par ∧ (s.setCs v).agenda = s.agenda ∧ (s.setCs v).miso = s.miso ∧
    (s.setCs v).draws = s.draws ∧ (s.setCs v).host = s.host ∧ (s.setCs v).rstP = s.rstP ∧ (s.setCs v).rstC = s.rstC ∧
    (s.setCs v).head = s.head ∧ (s.setCs v).headG = s.headG ∧ (s.setCs v).tailS = s.tailS ∧ (s.setCs v).ovf = s.ovf ∧
    (s.setCs v).penS = s.penS ∧ (s.setCs v).fatS = s.fatS ∧ (s.setCs v).pLost = s.pLost ∧ (s.setCs v).pq = s.pq ∧
    (s.setCs v).markArmed = s.markArmed ∧ (s.setCs v).mport = s.mport ∧ (s.setCs v).memReq = s.memReq ∧
    (s.setCs v).tailB = s.tailB ∧ (s.setCs v).tailG = s.tailG ∧ (s.setCs v).headS = s.headS ∧
    (s.setCs v).ovfS = s.ovfS ∧ (s.setCs v).plostS = s.plostS ∧ (s.setCs v).fatalC = s.fatalC ∧
    (s.setCs v).session = s.session ∧ (s.setCs v).fast = s.fast ∧ (s.setCs v).sdCsN = v ∧
    (s.setCs v).sdMosi = s.sdMosi ∧ (s.setCs v).sdSclk = s.sdSclk ∧ (s.setCs v).pos = s.pos ∧
    (s.setCs v).opArg = s.opArg ∧ (s.setCs v).ctrl = s.ctrl ∧ (s.setCs v).arg = s.arg ∧ (s.setCs v).done = s.done ∧
    (s.setCs v).cmdLost = s.cmdLost ∧ (s.setCs v).code = s.code ∧ (s.setCs v).ccs = s.ccs ∧
    (s.setCs v).attempts = s.attempts ∧ (s.setCs v).lastR1 = s.lastR1 ∧ (s.setCs v).lastTok = s.lastTok ∧
    (s.setCs v).ocr = s.ocr ∧ (s.setCs v).r7 = s.r7 ∧ (s.setCs v).sesBlocks = s.sesBlocks ∧
    (s.setCs v).rdcrc = s.rdcrc ∧ (s.setCs v).cfg = s.cfg ∧ (s.setCs v).rdbuf = s.rdbuf ∧
    (s.setCs v).hRdata = s.hRdata ∧ (s.setCs v).blink = s.blink ∧ (s.setCs v).mem = s.mem ∧
    (s.setCs v).cardTrace = .cs v :: s.cardTrace ∧ (s.setCs v).memReads = s.memReads ∧
    (s.setCs v).ringLog = s.ringLog ∧ (s.setCs v).freed = s.freed := by
  refine
    ⟨rfl, rfl, rfl, rfl, rfl, rfl, rfl, rfl, rfl, rfl, rfl, rfl, rfl, rfl, rfl, rfl, rfl, rfl, rfl, rfl, rfl, rfl,
    rfl, rfl, rfl, rfl, rfl, rfl, rfl, rfl, rfl, rfl, rfl, rfl, rfl, rfl, rfl, rfl, rfl, rfl, rfl, rfl, rfl, rfl, rfl,
    rfl, rfl, rfl, rfl, rfl, rfl, rfl, rfl⟩

@[simp] theorem State.xfer_fields (s : State) (tx rx : Byte) :
    (s.xfer tx rx).par = s.par ∧ (s.xfer tx rx).agenda = s.agenda ∧ (s.xfer tx rx).miso = s.miso ∧
    (s.xfer tx rx).draws = s.draws ∧ (s.xfer tx rx).host = s.host ∧ (s.xfer tx rx).rstP = s.rstP ∧
    (s.xfer tx rx).rstC = s.rstC ∧ (s.xfer tx rx).head = s.head ∧ (s.xfer tx rx).headG = s.headG ∧
    (s.xfer tx rx).tailS = s.tailS ∧ (s.xfer tx rx).ovf = s.ovf ∧ (s.xfer tx rx).penS = s.penS ∧
    (s.xfer tx rx).fatS = s.fatS ∧ (s.xfer tx rx).pLost = s.pLost ∧ (s.xfer tx rx).pq = s.pq ∧
    (s.xfer tx rx).markArmed = s.markArmed ∧ (s.xfer tx rx).mport = s.mport ∧ (s.xfer tx rx).memReq = s.memReq ∧
    (s.xfer tx rx).tailB = s.tailB ∧ (s.xfer tx rx).tailG = s.tailG ∧ (s.xfer tx rx).headS = s.headS ∧
    (s.xfer tx rx).ovfS = s.ovfS ∧ (s.xfer tx rx).plostS = s.plostS ∧ (s.xfer tx rx).fatalC = s.fatalC ∧
    (s.xfer tx rx).session = s.session ∧ (s.xfer tx rx).fast = s.fast ∧ (s.xfer tx rx).sdCsN = s.sdCsN ∧
    (s.xfer tx rx).sdMosi = true ∧ (s.xfer tx rx).sdSclk = false ∧ (s.xfer tx rx).pos = s.pos ∧
    (s.xfer tx rx).opArg = s.opArg ∧ (s.xfer tx rx).ctrl = s.ctrl ∧ (s.xfer tx rx).arg = s.arg ∧
    (s.xfer tx rx).done = s.done ∧ (s.xfer tx rx).cmdLost = s.cmdLost ∧ (s.xfer tx rx).code = s.code ∧
    (s.xfer tx rx).ccs = s.ccs ∧ (s.xfer tx rx).attempts = s.attempts ∧ (s.xfer tx rx).lastR1 = s.lastR1 ∧
    (s.xfer tx rx).lastTok = s.lastTok ∧ (s.xfer tx rx).ocr = s.ocr ∧ (s.xfer tx rx).r7 = s.r7 ∧
    (s.xfer tx rx).sesBlocks = s.sesBlocks ∧ (s.xfer tx rx).rdcrc = s.rdcrc ∧ (s.xfer tx rx).cfg = s.cfg ∧
    (s.xfer tx rx).rdbuf = s.rdbuf ∧ (s.xfer tx rx).hRdata = s.hRdata ∧ (s.xfer tx rx).blink = s.blink ∧
    (s.xfer tx rx).mem = s.mem ∧ (s.xfer tx rx).cardTrace = .xfer s.sdCsN tx rx :: s.cardTrace ∧
    (s.xfer tx rx).memReads = s.memReads ∧ (s.xfer tx rx).ringLog = s.ringLog ∧ (s.xfer tx rx).freed = s.freed := by
  refine
    ⟨rfl, rfl, rfl, rfl, rfl, rfl, rfl, rfl, rfl, rfl, rfl, rfl, rfl, rfl, rfl, rfl, rfl, rfl, rfl, rfl, rfl, rfl,
    rfl, rfl, rfl, rfl, rfl, rfl, rfl, rfl, rfl, rfl, rfl, rfl, rfl, rfl, rfl, rfl, rfl, rfl, rfl, rfl, rfl, rfl, rfl,
    rfl, rfl, rfl, rfl, rfl, rfl, rfl, rfl⟩

@[simp] theorem State.memWrite_fields (s : State) (off : Word) (v : Byte) :
    (s.memWrite off v).par = s.par ∧ (s.memWrite off v).agenda = s.agenda ∧ (s.memWrite off v).miso = s.miso ∧
    (s.memWrite off v).draws = s.draws ∧ (s.memWrite off v).host = s.host ∧ (s.memWrite off v).rstP = s.rstP ∧
    (s.memWrite off v).rstC = s.rstC ∧ (s.memWrite off v).head = s.head ∧ (s.memWrite off v).headG = s.headG ∧
    (s.memWrite off v).tailS = s.tailS ∧ (s.memWrite off v).ovf = s.ovf ∧ (s.memWrite off v).penS = s.penS ∧
    (s.memWrite off v).fatS = s.fatS ∧ (s.memWrite off v).pLost = s.pLost ∧ (s.memWrite off v).pq = s.pq ∧
    (s.memWrite off v).markArmed = s.markArmed ∧ (s.memWrite off v).mport = MemPort.idle ∧
    (s.memWrite off v).memReq = s.memReq ∧ (s.memWrite off v).tailB = s.tailB ∧ (s.memWrite off v).tailG = s.tailG ∧
    (s.memWrite off v).headS = s.headS ∧ (s.memWrite off v).ovfS = s.ovfS ∧ (s.memWrite off v).plostS = s.plostS ∧
    (s.memWrite off v).fatalC = s.fatalC ∧ (s.memWrite off v).session = s.session ∧ (s.memWrite off v).fast = s.fast ∧
    (s.memWrite off v).sdCsN = s.sdCsN ∧ (s.memWrite off v).sdMosi = s.sdMosi ∧ (s.memWrite off v).sdSclk = s.sdSclk ∧
    (s.memWrite off v).pos = s.pos ∧ (s.memWrite off v).opArg = s.opArg ∧ (s.memWrite off v).ctrl = s.ctrl ∧
    (s.memWrite off v).arg = s.arg ∧ (s.memWrite off v).done = s.done ∧ (s.memWrite off v).cmdLost = s.cmdLost ∧
    (s.memWrite off v).code = s.code ∧ (s.memWrite off v).ccs = s.ccs ∧ (s.memWrite off v).attempts = s.attempts ∧
    (s.memWrite off v).lastR1 = s.lastR1 ∧ (s.memWrite off v).lastTok = s.lastTok ∧ (s.memWrite off v).ocr = s.ocr ∧
    (s.memWrite off v).r7 = s.r7 ∧ (s.memWrite off v).sesBlocks = s.sesBlocks ∧ (s.memWrite off v).rdcrc = s.rdcrc ∧
    (s.memWrite off v).cfg = s.cfg ∧ (s.memWrite off v).rdbuf = s.rdbuf ∧ (s.memWrite off v).hRdata = s.hRdata ∧
    (s.memWrite off v).blink = s.blink ∧ (s.memWrite off v).mem = Memory.write s.mem off.toNat v ∧
    (s.memWrite off v).cardTrace = s.cardTrace ∧ (s.memWrite off v).memReads = s.memReads ∧
    (s.memWrite off v).ringLog = v :: s.ringLog ∧ (s.memWrite off v).freed = s.freed := by
  refine
    ⟨rfl, rfl, rfl, rfl, rfl, rfl, rfl, rfl, rfl, rfl, rfl, rfl, rfl, rfl, rfl, rfl, rfl, rfl, rfl, rfl, rfl, rfl,
    rfl, rfl, rfl, rfl, rfl, rfl, rfl, rfl, rfl, rfl, rfl, rfl, rfl, rfl, rfl, rfl, rfl, rfl, rfl, rfl, rfl, rfl, rfl,
    rfl, rfl, rfl, rfl, rfl, rfl, rfl, rfl⟩

@[simp] theorem State.advanceHead_fields (s : State) :
    (s.advanceHead).par = s.par ∧ (s.advanceHead).agenda = s.agenda ∧ (s.advanceHead).miso = s.miso ∧
    (s.advanceHead).draws = s.draws ∧ (s.advanceHead).host = s.host ∧ (s.advanceHead).rstP = s.rstP ∧
    (s.advanceHead).rstC = s.rstC ∧ (s.advanceHead).head = addMod s.par.n s.head 1#32 ∧
    (s.advanceHead).headG = bin2gray (addMod s.par.n s.head 1#32) ∧ (s.advanceHead).tailS = s.tailS ∧
    (s.advanceHead).ovf = s.ovf ∧ (s.advanceHead).penS = s.penS ∧ (s.advanceHead).fatS = s.fatS ∧
    (s.advanceHead).pLost = s.pLost ∧ (s.advanceHead).pq = s.pq ∧ (s.advanceHead).markArmed = s.markArmed ∧
    (s.advanceHead).mport = s.mport ∧ (s.advanceHead).memReq = s.memReq ∧ (s.advanceHead).tailB = s.tailB ∧
    (s.advanceHead).tailG = s.tailG ∧ (s.advanceHead).headS = s.headS.changed s.headG ∧
    (s.advanceHead).ovfS = s.ovfS ∧ (s.advanceHead).plostS = s.plostS ∧ (s.advanceHead).fatalC = s.fatalC ∧
    (s.advanceHead).session = s.session ∧ (s.advanceHead).fast = s.fast ∧ (s.advanceHead).sdCsN = s.sdCsN ∧
    (s.advanceHead).sdMosi = s.sdMosi ∧ (s.advanceHead).sdSclk = s.sdSclk ∧ (s.advanceHead).pos = s.pos ∧
    (s.advanceHead).opArg = s.opArg ∧ (s.advanceHead).ctrl = s.ctrl ∧ (s.advanceHead).arg = s.arg ∧
    (s.advanceHead).done = s.done ∧ (s.advanceHead).cmdLost = s.cmdLost ∧ (s.advanceHead).code = s.code ∧
    (s.advanceHead).ccs = s.ccs ∧ (s.advanceHead).attempts = s.attempts ∧ (s.advanceHead).lastR1 = s.lastR1 ∧
    (s.advanceHead).lastTok = s.lastTok ∧ (s.advanceHead).ocr = s.ocr ∧ (s.advanceHead).r7 = s.r7 ∧
    (s.advanceHead).sesBlocks = s.sesBlocks ∧ (s.advanceHead).rdcrc = s.rdcrc ∧ (s.advanceHead).cfg = s.cfg ∧
    (s.advanceHead).rdbuf = s.rdbuf ∧ (s.advanceHead).hRdata = s.hRdata ∧ (s.advanceHead).blink = s.blink ∧
    (s.advanceHead).mem = s.mem ∧ (s.advanceHead).cardTrace = s.cardTrace ∧ (s.advanceHead).memReads = s.memReads ∧
    (s.advanceHead).ringLog = s.ringLog ∧ (s.advanceHead).freed = s.freed := by
  refine
    ⟨rfl, rfl, rfl, rfl, rfl, rfl, rfl, rfl, rfl, rfl, rfl, rfl, rfl, rfl, rfl, rfl, rfl, rfl, rfl, rfl, rfl, rfl,
    rfl, rfl, rfl, rfl, rfl, rfl, rfl, rfl, rfl, rfl, rfl, rfl, rfl, rfl, rfl, rfl, rfl, rfl, rfl, rfl, rfl, rfl, rfl,
    rfl, rfl, rfl, rfl, rfl, rfl, rfl, rfl⟩

@[simp] theorem State.advanceTail_fields (s : State) :
    (s.advanceTail).par = s.par ∧ (s.advanceTail).agenda = s.agenda ∧ (s.advanceTail).miso = s.miso ∧
    (s.advanceTail).draws = s.draws ∧ (s.advanceTail).host = s.host ∧ (s.advanceTail).rstP = s.rstP ∧
    (s.advanceTail).rstC = s.rstC ∧ (s.advanceTail).head = s.head ∧ (s.advanceTail).headG = s.headG ∧
    (s.advanceTail).tailS = s.tailS.changed s.tailG ∧ (s.advanceTail).ovf = s.ovf ∧ (s.advanceTail).penS = s.penS ∧
    (s.advanceTail).fatS = s.fatS ∧ (s.advanceTail).pLost = s.pLost ∧ (s.advanceTail).pq = s.pq ∧
    (s.advanceTail).markArmed = s.markArmed ∧ (s.advanceTail).mport = s.mport ∧ (s.advanceTail).memReq = s.memReq ∧
    (s.advanceTail).tailB = addMod s.par.tb s.tailB 1#32 ∧
    (s.advanceTail).tailG = bin2gray (addMod s.par.tb s.tailB 1#32) ∧ (s.advanceTail).headS = s.headS ∧
    (s.advanceTail).ovfS = s.ovfS ∧ (s.advanceTail).plostS = s.plostS ∧ (s.advanceTail).fatalC = s.fatalC ∧
    (s.advanceTail).session = s.session ∧ (s.advanceTail).fast = s.fast ∧ (s.advanceTail).sdCsN = s.sdCsN ∧
    (s.advanceTail).sdMosi = s.sdMosi ∧ (s.advanceTail).sdSclk = s.sdSclk ∧ (s.advanceTail).pos = s.pos ∧
    (s.advanceTail).opArg = s.opArg ∧ (s.advanceTail).ctrl = s.ctrl ∧ (s.advanceTail).arg = s.arg ∧
    (s.advanceTail).done = s.done ∧ (s.advanceTail).cmdLost = s.cmdLost ∧ (s.advanceTail).code = s.code ∧
    (s.advanceTail).ccs = s.ccs ∧ (s.advanceTail).attempts = s.attempts ∧ (s.advanceTail).lastR1 = s.lastR1 ∧
    (s.advanceTail).lastTok = s.lastTok ∧ (s.advanceTail).ocr = s.ocr ∧ (s.advanceTail).r7 = s.r7 ∧
    (s.advanceTail).sesBlocks = s.sesBlocks ∧ (s.advanceTail).rdcrc = s.rdcrc ∧ (s.advanceTail).cfg = s.cfg ∧
    (s.advanceTail).rdbuf = s.rdbuf ∧ (s.advanceTail).hRdata = s.hRdata ∧ (s.advanceTail).blink = s.blink ∧
    (s.advanceTail).mem = s.mem ∧ (s.advanceTail).cardTrace = s.cardTrace ∧ (s.advanceTail).memReads = s.memReads ∧
    (s.advanceTail).ringLog = s.ringLog ∧ (s.advanceTail).freed = s.freed + 1 := by
  refine
    ⟨rfl, rfl, rfl, rfl, rfl, rfl, rfl, rfl, rfl, rfl, rfl, rfl, rfl, rfl, rfl, rfl, rfl, rfl, rfl, rfl, rfl, rfl,
    rfl, rfl, rfl, rfl, rfl, rfl, rfl, rfl, rfl, rfl, rfl, rfl, rfl, rfl, rfl, rfl, rfl, rfl, rfl, rfl, rfl, rfl, rfl,
    rfl, rfl, rfl, rfl, rfl, rfl, rfl, rfl⟩

@[simp] theorem State.setFatalC_fields (s : State) (c : FatalC) :
    (s.setFatalC c).par = s.par ∧ (s.setFatalC c).agenda = s.agenda ∧ (s.setFatalC c).miso = s.miso ∧
    (s.setFatalC c).draws = s.draws ∧ (s.setFatalC c).host = s.host ∧ (s.setFatalC c).rstP = s.rstP ∧
    (s.setFatalC c).rstC = s.rstC ∧ (s.setFatalC c).head = s.head ∧ (s.setFatalC c).headG = s.headG ∧
    (s.setFatalC c).tailS = s.tailS ∧ (s.setFatalC c).ovf = s.ovf ∧ (s.setFatalC c).penS = s.penS ∧
    (s.setFatalC c).fatS = s.fatS.changed s.fatalC.isSet ∧ (s.setFatalC c).pLost = s.pLost ∧
    (s.setFatalC c).pq = s.pq ∧ (s.setFatalC c).markArmed = s.markArmed ∧ (s.setFatalC c).mport = s.mport ∧
    (s.setFatalC c).memReq = s.memReq ∧ (s.setFatalC c).tailB = s.tailB ∧ (s.setFatalC c).tailG = s.tailG ∧
    (s.setFatalC c).headS = s.headS ∧ (s.setFatalC c).ovfS = s.ovfS ∧ (s.setFatalC c).plostS = s.plostS ∧
    (s.setFatalC c).fatalC = c ∧ (s.setFatalC c).session = s.session ∧ (s.setFatalC c).fast = s.fast ∧
    (s.setFatalC c).sdCsN = s.sdCsN ∧ (s.setFatalC c).sdMosi = s.sdMosi ∧ (s.setFatalC c).sdSclk = s.sdSclk ∧
    (s.setFatalC c).pos = s.pos ∧ (s.setFatalC c).opArg = s.opArg ∧ (s.setFatalC c).ctrl = s.ctrl ∧
    (s.setFatalC c).arg = s.arg ∧ (s.setFatalC c).done = s.done ∧ (s.setFatalC c).cmdLost = s.cmdLost ∧
    (s.setFatalC c).code = s.code ∧ (s.setFatalC c).ccs = s.ccs ∧ (s.setFatalC c).attempts = s.attempts ∧
    (s.setFatalC c).lastR1 = s.lastR1 ∧ (s.setFatalC c).lastTok = s.lastTok ∧ (s.setFatalC c).ocr = s.ocr ∧
    (s.setFatalC c).r7 = s.r7 ∧ (s.setFatalC c).sesBlocks = s.sesBlocks ∧ (s.setFatalC c).rdcrc = s.rdcrc ∧
    (s.setFatalC c).cfg = s.cfg ∧ (s.setFatalC c).rdbuf = s.rdbuf ∧ (s.setFatalC c).hRdata = s.hRdata ∧
    (s.setFatalC c).blink = s.blink ∧ (s.setFatalC c).mem = s.mem ∧ (s.setFatalC c).cardTrace = s.cardTrace ∧
    (s.setFatalC c).memReads = s.memReads ∧ (s.setFatalC c).ringLog = s.ringLog ∧ (s.setFatalC c).freed = s.freed := by
  refine
    ⟨rfl, rfl, rfl, rfl, rfl, rfl, rfl, rfl, rfl, rfl, rfl, rfl, rfl, rfl, rfl, rfl, rfl, rfl, rfl, rfl, rfl, rfl,
    rfl, rfl, rfl, rfl, rfl, rfl, rfl, rfl, rfl, rfl, rfl, rfl, rfl, rfl, rfl, rfl, rfl, rfl, rfl, rfl, rfl, rfl, rfl,
    rfl, rfl, rfl, rfl, rfl, rfl, rfl, rfl⟩

@[simp] theorem State.completeNow_fields (s : State) (c : Code) :
    (s.completeNow c).par = s.par ∧ (s.completeNow c).agenda = s.agenda ∧ (s.completeNow c).miso = s.miso ∧
    (s.completeNow c).draws = s.draws ∧ (s.completeNow c).host = s.host ∧ (s.completeNow c).rstP = s.rstP ∧
    (s.completeNow c).rstC = s.rstC ∧ (s.completeNow c).head = s.head ∧ (s.completeNow c).headG = s.headG ∧
    (s.completeNow c).tailS = s.tailS ∧ (s.completeNow c).ovf = s.ovf ∧ (s.completeNow c).penS = s.penS ∧
    (s.completeNow c).fatS = s.fatS ∧ (s.completeNow c).pLost = s.pLost ∧ (s.completeNow c).pq = s.pq ∧
    (s.completeNow c).markArmed = s.markArmed ∧ (s.completeNow c).mport = s.mport ∧
    (s.completeNow c).memReq = s.memReq ∧ (s.completeNow c).tailB = s.tailB ∧ (s.completeNow c).tailG = s.tailG ∧
    (s.completeNow c).headS = s.headS ∧ (s.completeNow c).ovfS = s.ovfS ∧ (s.completeNow c).plostS = s.plostS ∧
    (s.completeNow c).fatalC = s.fatalC ∧ (s.completeNow c).session = s.session ∧ (s.completeNow c).fast = s.fast ∧
    (s.completeNow c).sdCsN = s.sdCsN ∧ (s.completeNow c).sdMosi = s.sdMosi ∧ (s.completeNow c).sdSclk = s.sdSclk ∧
    (s.completeNow c).pos = s.pos ∧ (s.completeNow c).opArg = s.opArg ∧ (s.completeNow c).ctrl = s.ctrl ∧
    (s.completeNow c).arg = s.arg ∧ (s.completeNow c).done = true ∧ (s.completeNow c).cmdLost = s.cmdLost ∧
    (s.completeNow c).code = c ∧ (s.completeNow c).ccs = s.ccs ∧ (s.completeNow c).attempts = s.attempts ∧
    (s.completeNow c).lastR1 = s.lastR1 ∧ (s.completeNow c).lastTok = s.lastTok ∧ (s.completeNow c).ocr = s.ocr ∧
    (s.completeNow c).r7 = s.r7 ∧ (s.completeNow c).sesBlocks = s.sesBlocks ∧ (s.completeNow c).rdcrc = s.rdcrc ∧
    (s.completeNow c).cfg = s.cfg ∧ (s.completeNow c).rdbuf = s.rdbuf ∧ (s.completeNow c).hRdata = s.hRdata ∧
    (s.completeNow c).blink = s.blink ∧ (s.completeNow c).mem = s.mem ∧ (s.completeNow c).cardTrace = s.cardTrace ∧
    (s.completeNow c).memReads = s.memReads ∧ (s.completeNow c).ringLog = s.ringLog ∧
    (s.completeNow c).freed = s.freed := by
  refine
    ⟨rfl, rfl, rfl, rfl, rfl, rfl, rfl, rfl, rfl, rfl, rfl, rfl, rfl, rfl, rfl, rfl, rfl, rfl, rfl, rfl, rfl, rfl,
    rfl, rfl, rfl, rfl, rfl, rfl, rfl, rfl, rfl, rfl, rfl, rfl, rfl, rfl, rfl, rfl, rfl, rfl, rfl, rfl, rfl, rfl, rfl,
    rfl, rfl, rfl, rfl, rfl, rfl, rfl, rfl⟩

@[simp] theorem State.start_fields (s : State) (op : HostOp) :
    (s.start op).par = s.par ∧ (s.start op).agenda = s.agenda ∧ (s.start op).miso = s.miso ∧
    (s.start op).draws = s.draws ∧ (s.start op).host = s.host ∧ (s.start op).rstP = s.rstP ∧
    (s.start op).rstC = s.rstC ∧ (s.start op).head = s.head ∧ (s.start op).headG = s.headG ∧
    (s.start op).tailS = s.tailS ∧ (s.start op).ovf = s.ovf ∧ (s.start op).penS = s.penS ∧
    (s.start op).fatS = s.fatS ∧ (s.start op).pLost = s.pLost ∧ (s.start op).pq = s.pq ∧
    (s.start op).markArmed = s.markArmed ∧ (s.start op).mport = s.mport ∧ (s.start op).memReq = s.memReq ∧
    (s.start op).tailB = s.tailB ∧ (s.start op).tailG = s.tailG ∧ (s.start op).headS = s.headS ∧
    (s.start op).ovfS = s.ovfS ∧ (s.start op).plostS = s.plostS ∧ (s.start op).fatalC = s.fatalC ∧
    (s.start op).session = s.session ∧ (s.start op).fast = s.fast ∧ (s.start op).sdCsN = s.sdCsN ∧
    (s.start op).sdMosi = s.sdMosi ∧ (s.start op).sdSclk = s.sdSclk ∧ (s.start op).pos = s.firstPos op ∧
    (s.start op).opArg = s.arg ∧ (s.start op).ctrl = s.ctrl ∧ (s.start op).arg = s.arg ∧ (s.start op).done = false ∧
    (s.start op).cmdLost = s.cmdLost ∧ (s.start op).code = s.code ∧ (s.start op).ccs = s.ccs ∧
    (s.start op).attempts = s.attempts ∧ (s.start op).lastR1 = s.lastR1 ∧ (s.start op).lastTok = s.lastTok ∧
    (s.start op).ocr = s.ocr ∧ (s.start op).r7 = s.r7 ∧ (s.start op).sesBlocks = s.sesBlocks ∧
    (s.start op).rdcrc = s.rdcrc ∧ (s.start op).cfg = s.cfg ∧ (s.start op).rdbuf = s.rdbuf ∧
    (s.start op).hRdata = s.hRdata ∧ (s.start op).blink = s.blink ∧ (s.start op).mem = s.mem ∧
    (s.start op).cardTrace = s.cardTrace ∧ (s.start op).memReads = s.memReads ∧ (s.start op).ringLog = s.ringLog ∧
    (s.start op).freed = s.freed := by
  refine
    ⟨rfl, rfl, rfl, rfl, rfl, rfl, rfl, rfl, rfl, rfl, rfl, rfl, rfl, rfl, rfl, rfl, rfl, rfl, rfl, rfl, rfl, rfl,
    rfl, rfl, rfl, rfl, rfl, rfl, rfl, rfl, rfl, rfl, rfl, rfl, rfl, rfl, rfl, rfl, rfl, rfl, rfl, rfl, rfl, rfl, rfl,
    rfl, rfl, rfl, rfl, rfl, rfl, rfl, rfl⟩

@[simp] theorem State.beginAttempt_fields (s : State) (att : Nat) :
    (s.beginAttempt att).par = s.par ∧ (s.beginAttempt att).agenda = s.agenda ∧ (s.beginAttempt att).miso = s.miso ∧
    (s.beginAttempt att).draws = s.draws ∧ (s.beginAttempt att).host = s.host ∧ (s.beginAttempt att).rstP = s.rstP ∧
    (s.beginAttempt att).rstC = s.rstC ∧ (s.beginAttempt att).head = s.head ∧ (s.beginAttempt att).headG = s.headG ∧
    (s.beginAttempt att).tailS = s.tailS ∧ (s.beginAttempt att).ovf = s.ovf ∧ (s.beginAttempt att).penS = s.penS ∧
    (s.beginAttempt att).fatS = s.fatS ∧ (s.beginAttempt att).pLost = s.pLost ∧ (s.beginAttempt att).pq = s.pq ∧
    (s.beginAttempt att).markArmed = s.markArmed ∧ (s.beginAttempt att).mport = s.mport ∧
    (s.beginAttempt att).memReq = s.memReq ∧ (s.beginAttempt att).tailB = s.tailB ∧
    (s.beginAttempt att).tailG = s.tailG ∧ (s.beginAttempt att).headS = s.headS ∧ (s.beginAttempt att).ovfS = s.ovfS ∧
    (s.beginAttempt att).plostS = s.plostS ∧ (s.beginAttempt att).fatalC = s.fatalC ∧
    (s.beginAttempt att).session = s.session ∧ (s.beginAttempt att).fast = s.fast ∧
    (s.beginAttempt att).sdCsN = s.sdCsN ∧ (s.beginAttempt att).sdMosi = s.sdMosi ∧
    (s.beginAttempt att).sdSclk = s.sdSclk ∧ (s.beginAttempt att).pos = .initDeselect att ∧
    (s.beginAttempt att).opArg = s.opArg ∧ (s.beginAttempt att).ctrl = s.ctrl ∧ (s.beginAttempt att).arg = s.arg ∧
    (s.beginAttempt att).done = s.done ∧ (s.beginAttempt att).cmdLost = s.cmdLost ∧
    (s.beginAttempt att).code = s.code ∧ (s.beginAttempt att).ccs = s.ccs ∧
    (s.beginAttempt att).attempts = BitVec.ofNat 3 att ∧ (s.beginAttempt att).lastR1 = s.lastR1 ∧
    (s.beginAttempt att).lastTok = s.lastTok ∧ (s.beginAttempt att).ocr = s.ocr ∧ (s.beginAttempt att).r7 = s.r7 ∧
    (s.beginAttempt att).sesBlocks = s.sesBlocks ∧ (s.beginAttempt att).rdcrc = s.rdcrc ∧
    (s.beginAttempt att).cfg = s.cfg ∧ (s.beginAttempt att).rdbuf = s.rdbuf ∧ (s.beginAttempt att).hRdata = s.hRdata ∧
    (s.beginAttempt att).blink = s.blink ∧ (s.beginAttempt att).mem = s.mem ∧
    (s.beginAttempt att).cardTrace = s.cardTrace ∧ (s.beginAttempt att).memReads = s.memReads ∧
    (s.beginAttempt att).ringLog = s.ringLog ∧ (s.beginAttempt att).freed = s.freed := by
  refine
    ⟨rfl, rfl, rfl, rfl, rfl, rfl, rfl, rfl, rfl, rfl, rfl, rfl, rfl, rfl, rfl, rfl, rfl, rfl, rfl, rfl, rfl, rfl,
    rfl, rfl, rfl, rfl, rfl, rfl, rfl, rfl, rfl, rfl, rfl, rfl, rfl, rfl, rfl, rfl, rfl, rfl, rfl, rfl, rfl, rfl, rfl,
    rfl, rfl, rfl, rfl, rfl, rfl, rfl, rfl⟩

@[simp] theorem State.requestRead_fields (s : State) (w : WriteKind) (i : Nat) :
    (s.requestRead w i).par = s.par ∧ (s.requestRead w i).agenda = s.agenda ∧ (s.requestRead w i).miso = s.miso ∧
    (s.requestRead w i).draws = s.draws ∧ (s.requestRead w i).host = s.host ∧ (s.requestRead w i).rstP = s.rstP ∧
    (s.requestRead w i).rstC = s.rstC ∧ (s.requestRead w i).head = s.head ∧ (s.requestRead w i).headG = s.headG ∧
    (s.requestRead w i).tailS = s.tailS ∧ (s.requestRead w i).ovf = s.ovf ∧ (s.requestRead w i).penS = s.penS ∧
    (s.requestRead w i).fatS = s.fatS ∧ (s.requestRead w i).pLost = s.pLost ∧ (s.requestRead w i).pq = s.pq ∧
    (s.requestRead w i).markArmed = s.markArmed ∧ (s.requestRead w i).mport = s.mport ∧
    (s.requestRead w i).memReq = some (addMod s.par.n s.tail (BitVec.ofNat 32 i)) ∧
    (s.requestRead w i).tailB = s.tailB ∧ (s.requestRead w i).tailG = s.tailG ∧ (s.requestRead w i).headS = s.headS ∧
    (s.requestRead w i).ovfS = s.ovfS ∧ (s.requestRead w i).plostS = s.plostS ∧
    (s.requestRead w i).fatalC = s.fatalC ∧ (s.requestRead w i).session = s.session ∧
    (s.requestRead w i).fast = s.fast ∧ (s.requestRead w i).sdCsN = s.sdCsN ∧ (s.requestRead w i).sdMosi = s.sdMosi ∧
    (s.requestRead w i).sdSclk = s.sdSclk ∧ (s.requestRead w i).pos = .memRead w i ∧
    (s.requestRead w i).opArg = s.opArg ∧ (s.requestRead w i).ctrl = s.ctrl ∧ (s.requestRead w i).arg = s.arg ∧
    (s.requestRead w i).done = s.done ∧ (s.requestRead w i).cmdLost = s.cmdLost ∧ (s.requestRead w i).code = s.code ∧
    (s.requestRead w i).ccs = s.ccs ∧ (s.requestRead w i).attempts = s.attempts ∧
    (s.requestRead w i).lastR1 = s.lastR1 ∧ (s.requestRead w i).lastTok = s.lastTok ∧
    (s.requestRead w i).ocr = s.ocr ∧ (s.requestRead w i).r7 = s.r7 ∧ (s.requestRead w i).sesBlocks = s.sesBlocks ∧
    (s.requestRead w i).rdcrc = s.rdcrc ∧ (s.requestRead w i).cfg = s.cfg ∧ (s.requestRead w i).rdbuf = s.rdbuf ∧
    (s.requestRead w i).hRdata = s.hRdata ∧ (s.requestRead w i).blink = s.blink ∧ (s.requestRead w i).mem = s.mem ∧
    (s.requestRead w i).cardTrace = s.cardTrace ∧ (s.requestRead w i).memReads = s.memReads ∧
    (s.requestRead w i).ringLog = s.ringLog ∧ (s.requestRead w i).freed = s.freed := by
  refine
    ⟨rfl, rfl, rfl, rfl, rfl, rfl, rfl, rfl, rfl, rfl, rfl, rfl, rfl, rfl, rfl, rfl, rfl, rfl, rfl, rfl, rfl, rfl,
    rfl, rfl, rfl, rfl, rfl, rfl, rfl, rfl, rfl, rfl, rfl, rfl, rfl, rfl, rfl, rfl, rfl, rfl, rfl, rfl, rfl, rfl, rfl,
    rfl, rfl, rfl, rfl, rfl, rfl, rfl, rfl⟩

@[simp] theorem State.sampleEvent_fields (s : State) (v : BitVec 16) :
    (s.sampleEvent v).par = s.par ∧ (s.sampleEvent v).agenda = s.agenda ∧ (s.sampleEvent v).miso = s.miso ∧
    (s.sampleEvent v).draws = s.draws ∧ (s.sampleEvent v).host = s.host ∧ (s.sampleEvent v).rstP = s.rstP ∧
    (s.sampleEvent v).rstC = s.rstC ∧ (s.sampleEvent v).head = s.head ∧ (s.sampleEvent v).headG = s.headG ∧
    (s.sampleEvent v).tailS = s.tailS ∧ (s.sampleEvent v).ovf = s.ovf ∧ (s.sampleEvent v).penS = s.penS ∧
    (s.sampleEvent v).fatS = s.fatS ∧ (s.sampleEvent v).pLost = s.pLost ∧
    (s.sampleEvent v).pq = sampleBytes s.par.lsbFirst v ∧ (s.sampleEvent v).markArmed = s.markArmed ∧
    (s.sampleEvent v).mport = s.mport ∧ (s.sampleEvent v).memReq = s.memReq ∧ (s.sampleEvent v).tailB = s.tailB ∧
    (s.sampleEvent v).tailG = s.tailG ∧ (s.sampleEvent v).headS = s.headS ∧ (s.sampleEvent v).ovfS = s.ovfS ∧
    (s.sampleEvent v).plostS = s.plostS ∧ (s.sampleEvent v).fatalC = s.fatalC ∧
    (s.sampleEvent v).session = s.session ∧ (s.sampleEvent v).fast = s.fast ∧ (s.sampleEvent v).sdCsN = s.sdCsN ∧
    (s.sampleEvent v).sdMosi = s.sdMosi ∧ (s.sampleEvent v).sdSclk = s.sdSclk ∧ (s.sampleEvent v).pos = s.pos ∧
    (s.sampleEvent v).opArg = s.opArg ∧ (s.sampleEvent v).ctrl = s.ctrl ∧ (s.sampleEvent v).arg = s.arg ∧
    (s.sampleEvent v).done = s.done ∧ (s.sampleEvent v).cmdLost = s.cmdLost ∧ (s.sampleEvent v).code = s.code ∧
    (s.sampleEvent v).ccs = s.ccs ∧ (s.sampleEvent v).attempts = s.attempts ∧ (s.sampleEvent v).lastR1 = s.lastR1 ∧
    (s.sampleEvent v).lastTok = s.lastTok ∧ (s.sampleEvent v).ocr = s.ocr ∧ (s.sampleEvent v).r7 = s.r7 ∧
    (s.sampleEvent v).sesBlocks = s.sesBlocks ∧ (s.sampleEvent v).rdcrc = s.rdcrc ∧ (s.sampleEvent v).cfg = s.cfg ∧
    (s.sampleEvent v).rdbuf = s.rdbuf ∧ (s.sampleEvent v).hRdata = s.hRdata ∧ (s.sampleEvent v).blink = s.blink ∧
    (s.sampleEvent v).mem = s.mem ∧ (s.sampleEvent v).cardTrace = s.cardTrace ∧
    (s.sampleEvent v).memReads = s.memReads ∧ (s.sampleEvent v).ringLog = s.ringLog ∧
    (s.sampleEvent v).freed = s.freed := by
  refine
    ⟨rfl, rfl, rfl, rfl, rfl, rfl, rfl, rfl, rfl, rfl, rfl, rfl, rfl, rfl, rfl, rfl, rfl, rfl, rfl, rfl, rfl, rfl,
    rfl, rfl, rfl, rfl, rfl, rfl, rfl, rfl, rfl, rfl, rfl, rfl, rfl, rfl, rfl, rfl, rfl, rfl, rfl, rfl, rfl, rfl, rfl,
    rfl, rfl, rfl, rfl, rfl, rfl, rfl, rfl⟩

@[simp] theorem State.hostGoto_fields (s : State) (k : Nat) :
    (s.hostGoto k).par = s.par ∧ (s.hostGoto k).agenda = s.agenda ∧ (s.hostGoto k).miso = s.miso ∧
    (s.hostGoto k).draws = s.draws ∧ (s.hostGoto k).host = { s.host with line := k } ∧ (s.hostGoto k).rstP = s.rstP ∧
    (s.hostGoto k).rstC = s.rstC ∧ (s.hostGoto k).head = s.head ∧ (s.hostGoto k).headG = s.headG ∧
    (s.hostGoto k).tailS = s.tailS ∧ (s.hostGoto k).ovf = s.ovf ∧ (s.hostGoto k).penS = s.penS ∧
    (s.hostGoto k).fatS = s.fatS ∧ (s.hostGoto k).pLost = s.pLost ∧ (s.hostGoto k).pq = s.pq ∧
    (s.hostGoto k).markArmed = s.markArmed ∧ (s.hostGoto k).mport = s.mport ∧ (s.hostGoto k).memReq = s.memReq ∧
    (s.hostGoto k).tailB = s.tailB ∧ (s.hostGoto k).tailG = s.tailG ∧ (s.hostGoto k).headS = s.headS ∧
    (s.hostGoto k).ovfS = s.ovfS ∧ (s.hostGoto k).plostS = s.plostS ∧ (s.hostGoto k).fatalC = s.fatalC ∧
    (s.hostGoto k).session = s.session ∧ (s.hostGoto k).fast = s.fast ∧ (s.hostGoto k).sdCsN = s.sdCsN ∧
    (s.hostGoto k).sdMosi = s.sdMosi ∧ (s.hostGoto k).sdSclk = s.sdSclk ∧ (s.hostGoto k).pos = s.pos ∧
    (s.hostGoto k).opArg = s.opArg ∧ (s.hostGoto k).ctrl = s.ctrl ∧ (s.hostGoto k).arg = s.arg ∧
    (s.hostGoto k).done = s.done ∧ (s.hostGoto k).cmdLost = s.cmdLost ∧ (s.hostGoto k).code = s.code ∧
    (s.hostGoto k).ccs = s.ccs ∧ (s.hostGoto k).attempts = s.attempts ∧ (s.hostGoto k).lastR1 = s.lastR1 ∧
    (s.hostGoto k).lastTok = s.lastTok ∧ (s.hostGoto k).ocr = s.ocr ∧ (s.hostGoto k).r7 = s.r7 ∧
    (s.hostGoto k).sesBlocks = s.sesBlocks ∧ (s.hostGoto k).rdcrc = s.rdcrc ∧ (s.hostGoto k).cfg = s.cfg ∧
    (s.hostGoto k).rdbuf = s.rdbuf ∧ (s.hostGoto k).hRdata = s.hRdata ∧ (s.hostGoto k).blink = s.blink ∧
    (s.hostGoto k).mem = s.mem ∧ (s.hostGoto k).cardTrace = s.cardTrace ∧ (s.hostGoto k).memReads = s.memReads ∧
    (s.hostGoto k).ringLog = s.ringLog ∧ (s.hostGoto k).freed = s.freed := by
  refine
    ⟨rfl, rfl, rfl, rfl, rfl, rfl, rfl, rfl, rfl, rfl, rfl, rfl, rfl, rfl, rfl, rfl, rfl, rfl, rfl, rfl, rfl, rfl,
    rfl, rfl, rfl, rfl, rfl, rfl, rfl, rfl, rfl, rfl, rfl, rfl, rfl, rfl, rfl, rfl, rfl, rfl, rfl, rfl, rfl, rfl, rfl,
    rfl, rfl, rfl, rfl, rfl, rfl, rfl, rfl⟩

@[simp] theorem State.hostReadEvent_fields (s : State) (addr : BitVec 12) :
    (s.hostReadEvent addr).par = s.par ∧ (s.hostReadEvent addr).agenda = s.agenda ∧
    (s.hostReadEvent addr).miso = s.miso ∧ (s.hostReadEvent addr).draws = s.draws ∧
    (s.hostReadEvent addr).host = s.host ∧ (s.hostReadEvent addr).rstP = s.rstP ∧
    (s.hostReadEvent addr).rstC = s.rstC ∧ (s.hostReadEvent addr).head = s.head ∧
    (s.hostReadEvent addr).headG = s.headG ∧ (s.hostReadEvent addr).tailS = s.tailS ∧
    (s.hostReadEvent addr).ovf = s.ovf ∧ (s.hostReadEvent addr).penS = s.penS ∧ (s.hostReadEvent addr).fatS = s.fatS ∧
    (s.hostReadEvent addr).pLost = s.pLost ∧ (s.hostReadEvent addr).pq = s.pq ∧
    (s.hostReadEvent addr).markArmed = s.markArmed ∧ (s.hostReadEvent addr).mport = s.mport ∧
    (s.hostReadEvent addr).memReq = s.memReq ∧ (s.hostReadEvent addr).tailB = s.tailB ∧
    (s.hostReadEvent addr).tailG = s.tailG ∧ (s.hostReadEvent addr).headS = s.headS ∧
    (s.hostReadEvent addr).ovfS = s.ovfS ∧ (s.hostReadEvent addr).plostS = s.plostS ∧
    (s.hostReadEvent addr).fatalC = s.fatalC ∧ (s.hostReadEvent addr).session = s.session ∧
    (s.hostReadEvent addr).fast = s.fast ∧ (s.hostReadEvent addr).sdCsN = s.sdCsN ∧
    (s.hostReadEvent addr).sdMosi = s.sdMosi ∧ (s.hostReadEvent addr).sdSclk = s.sdSclk ∧
    (s.hostReadEvent addr).pos = s.pos ∧ (s.hostReadEvent addr).opArg = s.opArg ∧
    (s.hostReadEvent addr).ctrl = s.ctrl ∧ (s.hostReadEvent addr).arg = s.arg ∧ (s.hostReadEvent addr).done = s.done ∧
    (s.hostReadEvent addr).cmdLost = s.cmdLost ∧ (s.hostReadEvent addr).code = s.code ∧
    (s.hostReadEvent addr).ccs = s.ccs ∧ (s.hostReadEvent addr).attempts = s.attempts ∧
    (s.hostReadEvent addr).lastR1 = s.lastR1 ∧ (s.hostReadEvent addr).lastTok = s.lastTok ∧
    (s.hostReadEvent addr).ocr = s.ocr ∧ (s.hostReadEvent addr).r7 = s.r7 ∧
    (s.hostReadEvent addr).sesBlocks = s.sesBlocks ∧ (s.hostReadEvent addr).rdcrc = s.rdcrc ∧
    (s.hostReadEvent addr).cfg = s.cfg ∧ (s.hostReadEvent addr).rdbuf = s.rdbuf ∧
    (s.hostReadEvent addr).hRdata = s.hostRead addr ∧ (s.hostReadEvent addr).blink = s.blink ∧
    (s.hostReadEvent addr).mem = s.mem ∧ (s.hostReadEvent addr).cardTrace = s.cardTrace ∧
    (s.hostReadEvent addr).memReads = s.memReads ∧ (s.hostReadEvent addr).ringLog = s.ringLog ∧
    (s.hostReadEvent addr).freed = s.freed := by
  refine
    ⟨rfl, rfl, rfl, rfl, rfl, rfl, rfl, rfl, rfl, rfl, rfl, rfl, rfl, rfl, rfl, rfl, rfl, rfl, rfl, rfl, rfl, rfl,
    rfl, rfl, rfl, rfl, rfl, rfl, rfl, rfl, rfl, rfl, rfl, rfl, rfl, rfl, rfl, rfl, rfl, rfl, rfl, rfl, rfl, rfl, rfl,
    rfl, rfl, rfl, rfl, rfl, rfl, rfl, rfl⟩

@[simp] theorem State.setOvf_fields (s : State) :
    (s.setOvf).par = s.par ∧ (s.setOvf).agenda = s.agenda ∧ (s.setOvf).miso = s.miso ∧ (s.setOvf).draws = s.draws ∧
    (s.setOvf).host = s.host ∧ (s.setOvf).rstP = s.rstP ∧ (s.setOvf).rstC = s.rstC ∧ (s.setOvf).head = s.head ∧
    (s.setOvf).headG = s.headG ∧ (s.setOvf).tailS = s.tailS ∧ (s.setOvf).ovf = true ∧ (s.setOvf).penS = s.penS ∧
    (s.setOvf).fatS = s.fatS ∧ (s.setOvf).pLost = s.pLost ∧ (s.setOvf).pq = s.pq ∧
    (s.setOvf).markArmed = s.markArmed ∧ (s.setOvf).mport = s.mport ∧ (s.setOvf).memReq = s.memReq ∧
    (s.setOvf).tailB = s.tailB ∧ (s.setOvf).tailG = s.tailG ∧ (s.setOvf).headS = s.headS ∧
    (s.setOvf).plostS = s.plostS ∧ (s.setOvf).fatalC = s.fatalC ∧ (s.setOvf).session = s.session ∧
    (s.setOvf).fast = s.fast ∧ (s.setOvf).sdCsN = s.sdCsN ∧ (s.setOvf).sdMosi = s.sdMosi ∧
    (s.setOvf).sdSclk = s.sdSclk ∧ (s.setOvf).pos = s.pos ∧ (s.setOvf).opArg = s.opArg ∧ (s.setOvf).ctrl = s.ctrl ∧
    (s.setOvf).arg = s.arg ∧ (s.setOvf).done = s.done ∧ (s.setOvf).cmdLost = s.cmdLost ∧ (s.setOvf).code = s.code ∧
    (s.setOvf).ccs = s.ccs ∧ (s.setOvf).attempts = s.attempts ∧ (s.setOvf).lastR1 = s.lastR1 ∧
    (s.setOvf).lastTok = s.lastTok ∧ (s.setOvf).ocr = s.ocr ∧ (s.setOvf).r7 = s.r7 ∧
    (s.setOvf).sesBlocks = s.sesBlocks ∧ (s.setOvf).rdcrc = s.rdcrc ∧ (s.setOvf).cfg = s.cfg ∧
    (s.setOvf).rdbuf = s.rdbuf ∧ (s.setOvf).hRdata = s.hRdata ∧ (s.setOvf).blink = s.blink ∧ (s.setOvf).mem = s.mem ∧
    (s.setOvf).cardTrace = s.cardTrace ∧ (s.setOvf).memReads = s.memReads ∧ (s.setOvf).ringLog = s.ringLog ∧
    (s.setOvf).freed = s.freed := by
  unfold State.setOvf
  split <;> simp_all

@[simp] theorem State.setPLost_fields (s : State) :
    (s.setPLost).par = s.par ∧ (s.setPLost).agenda = s.agenda ∧ (s.setPLost).miso = s.miso ∧
    (s.setPLost).draws = s.draws ∧ (s.setPLost).host = s.host ∧ (s.setPLost).rstP = s.rstP ∧
    (s.setPLost).rstC = s.rstC ∧ (s.setPLost).head = s.head ∧ (s.setPLost).headG = s.headG ∧
    (s.setPLost).tailS = s.tailS ∧ (s.setPLost).ovf = s.ovf ∧ (s.setPLost).penS = s.penS ∧
    (s.setPLost).fatS = s.fatS ∧ (s.setPLost).pLost = true ∧ (s.setPLost).pq = s.pq ∧
    (s.setPLost).markArmed = s.markArmed ∧ (s.setPLost).mport = s.mport ∧ (s.setPLost).memReq = s.memReq ∧
    (s.setPLost).tailB = s.tailB ∧ (s.setPLost).tailG = s.tailG ∧ (s.setPLost).headS = s.headS ∧
    (s.setPLost).ovfS = s.ovfS ∧ (s.setPLost).fatalC = s.fatalC ∧ (s.setPLost).session = s.session ∧
    (s.setPLost).fast = s.fast ∧ (s.setPLost).sdCsN = s.sdCsN ∧ (s.setPLost).sdMosi = s.sdMosi ∧
    (s.setPLost).sdSclk = s.sdSclk ∧ (s.setPLost).pos = s.pos ∧ (s.setPLost).opArg = s.opArg ∧
    (s.setPLost).ctrl = s.ctrl ∧ (s.setPLost).arg = s.arg ∧ (s.setPLost).done = s.done ∧
    (s.setPLost).cmdLost = s.cmdLost ∧ (s.setPLost).code = s.code ∧ (s.setPLost).ccs = s.ccs ∧
    (s.setPLost).attempts = s.attempts ∧ (s.setPLost).lastR1 = s.lastR1 ∧ (s.setPLost).lastTok = s.lastTok ∧
    (s.setPLost).ocr = s.ocr ∧ (s.setPLost).r7 = s.r7 ∧ (s.setPLost).sesBlocks = s.sesBlocks ∧
    (s.setPLost).rdcrc = s.rdcrc ∧ (s.setPLost).cfg = s.cfg ∧ (s.setPLost).rdbuf = s.rdbuf ∧
    (s.setPLost).hRdata = s.hRdata ∧ (s.setPLost).blink = s.blink ∧ (s.setPLost).mem = s.mem ∧
    (s.setPLost).cardTrace = s.cardTrace ∧ (s.setPLost).memReads = s.memReads ∧ (s.setPLost).ringLog = s.ringLog ∧
    (s.setPLost).freed = s.freed := by
  unfold State.setPLost
  split <;> simp_all

@[simp] theorem State.setProdEn_fields (s : State) (v : Bool) :
    (s.setProdEn v).par = s.par ∧ (s.setProdEn v).agenda = s.agenda ∧ (s.setProdEn v).miso = s.miso ∧
    (s.setProdEn v).draws = s.draws ∧ (s.setProdEn v).host = s.host ∧ (s.setProdEn v).rstP = s.rstP ∧
    (s.setProdEn v).rstC = s.rstC ∧ (s.setProdEn v).head = s.head ∧ (s.setProdEn v).headG = s.headG ∧
    (s.setProdEn v).tailS = s.tailS ∧ (s.setProdEn v).ovf = s.ovf ∧ (s.setProdEn v).fatS = s.fatS ∧
    (s.setProdEn v).pLost = s.pLost ∧ (s.setProdEn v).pq = s.pq ∧ (s.setProdEn v).markArmed = s.markArmed ∧
    (s.setProdEn v).mport = s.mport ∧ (s.setProdEn v).memReq = s.memReq ∧ (s.setProdEn v).tailB = s.tailB ∧
    (s.setProdEn v).tailG = s.tailG ∧ (s.setProdEn v).headS = s.headS ∧ (s.setProdEn v).ovfS = s.ovfS ∧
    (s.setProdEn v).plostS = s.plostS ∧ (s.setProdEn v).fatalC = s.fatalC ∧ (s.setProdEn v).session = s.session ∧
    (s.setProdEn v).fast = s.fast ∧ (s.setProdEn v).sdCsN = s.sdCsN ∧ (s.setProdEn v).sdMosi = s.sdMosi ∧
    (s.setProdEn v).sdSclk = s.sdSclk ∧ (s.setProdEn v).pos = s.pos ∧ (s.setProdEn v).opArg = s.opArg ∧
    (s.setProdEn v).arg = s.arg ∧ (s.setProdEn v).done = s.done ∧ (s.setProdEn v).cmdLost = s.cmdLost ∧
    (s.setProdEn v).code = s.code ∧ (s.setProdEn v).ccs = s.ccs ∧ (s.setProdEn v).attempts = s.attempts ∧
    (s.setProdEn v).lastR1 = s.lastR1 ∧ (s.setProdEn v).lastTok = s.lastTok ∧ (s.setProdEn v).ocr = s.ocr ∧
    (s.setProdEn v).r7 = s.r7 ∧ (s.setProdEn v).sesBlocks = s.sesBlocks ∧ (s.setProdEn v).rdcrc = s.rdcrc ∧
    (s.setProdEn v).cfg = s.cfg ∧ (s.setProdEn v).rdbuf = s.rdbuf ∧ (s.setProdEn v).hRdata = s.hRdata ∧
    (s.setProdEn v).blink = s.blink ∧ (s.setProdEn v).mem = s.mem ∧ (s.setProdEn v).cardTrace = s.cardTrace ∧
    (s.setProdEn v).memReads = s.memReads ∧ (s.setProdEn v).ringLog = s.ringLog ∧ (s.setProdEn v).freed = s.freed := by
  unfold State.setProdEn
  split <;> simp_all

@[simp] theorem State.answerTaken_fields (s : State) :
    (s.answerTaken).par = s.par ∧ (s.answerTaken).agenda = s.agenda ∧ (s.answerTaken).host = s.host ∧
    (s.answerTaken).rstP = s.rstP ∧ (s.answerTaken).rstC = s.rstC ∧ (s.answerTaken).head = s.head ∧
    (s.answerTaken).headG = s.headG ∧ (s.answerTaken).tailS = s.tailS ∧ (s.answerTaken).ovf = s.ovf ∧
    (s.answerTaken).penS = s.penS ∧ (s.answerTaken).fatS = s.fatS ∧ (s.answerTaken).pLost = s.pLost ∧
    (s.answerTaken).pq = s.pq ∧ (s.answerTaken).markArmed = s.markArmed ∧ (s.answerTaken).mport = s.mport ∧
    (s.answerTaken).memReq = s.memReq ∧ (s.answerTaken).tailB = s.tailB ∧ (s.answerTaken).tailG = s.tailG ∧
    (s.answerTaken).headS = s.headS ∧ (s.answerTaken).ovfS = s.ovfS ∧ (s.answerTaken).plostS = s.plostS ∧
    (s.answerTaken).fatalC = s.fatalC ∧ (s.answerTaken).session = s.session ∧ (s.answerTaken).fast = s.fast ∧
    (s.answerTaken).sdCsN = s.sdCsN ∧ (s.answerTaken).sdMosi = s.sdMosi ∧ (s.answerTaken).sdSclk = s.sdSclk ∧
    (s.answerTaken).pos = s.pos ∧ (s.answerTaken).opArg = s.opArg ∧ (s.answerTaken).ctrl = s.ctrl ∧
    (s.answerTaken).arg = s.arg ∧ (s.answerTaken).done = s.done ∧ (s.answerTaken).cmdLost = s.cmdLost ∧
    (s.answerTaken).code = s.code ∧ (s.answerTaken).ccs = s.ccs ∧ (s.answerTaken).attempts = s.attempts ∧
    (s.answerTaken).lastR1 = s.lastR1 ∧ (s.answerTaken).lastTok = s.lastTok ∧ (s.answerTaken).ocr = s.ocr ∧
    (s.answerTaken).r7 = s.r7 ∧ (s.answerTaken).sesBlocks = s.sesBlocks ∧ (s.answerTaken).rdcrc = s.rdcrc ∧
    (s.answerTaken).cfg = s.cfg ∧ (s.answerTaken).rdbuf = s.rdbuf ∧ (s.answerTaken).hRdata = s.hRdata ∧
    (s.answerTaken).blink = s.blink ∧ (s.answerTaken).mem = s.mem ∧ (s.answerTaken).cardTrace = s.cardTrace ∧
    (s.answerTaken).memReads = s.memReads ∧ (s.answerTaken).ringLog = s.ringLog ∧ (s.answerTaken).freed = s.freed := by
  unfold State.answerTaken
  split <;> simp_all

@[simp] theorem State.fatalUpdate_fields (s : State) (c : Code) :
    (s.fatalUpdate c).par = s.par ∧ (s.fatalUpdate c).agenda = s.agenda ∧ (s.fatalUpdate c).miso = s.miso ∧
    (s.fatalUpdate c).draws = s.draws ∧ (s.fatalUpdate c).host = s.host ∧ (s.fatalUpdate c).rstP = s.rstP ∧
    (s.fatalUpdate c).rstC = s.rstC ∧ (s.fatalUpdate c).head = s.head ∧ (s.fatalUpdate c).headG = s.headG ∧
    (s.fatalUpdate c).tailS = s.tailS ∧ (s.fatalUpdate c).ovf = s.ovf ∧ (s.fatalUpdate c).penS = s.penS ∧
    (s.fatalUpdate c).pLost = s.pLost ∧ (s.fatalUpdate c).pq = s.pq ∧ (s.fatalUpdate c).markArmed = s.markArmed ∧
    (s.fatalUpdate c).mport = s.mport ∧ (s.fatalUpdate c).memReq = s.memReq ∧ (s.fatalUpdate c).tailB = s.tailB ∧
    (s.fatalUpdate c).tailG = s.tailG ∧ (s.fatalUpdate c).headS = s.headS ∧ (s.fatalUpdate c).ovfS = s.ovfS ∧
    (s.fatalUpdate c).plostS = s.plostS ∧ (s.fatalUpdate c).session = s.session ∧ (s.fatalUpdate c).fast = s.fast ∧
    (s.fatalUpdate c).sdCsN = s.sdCsN ∧ (s.fatalUpdate c).sdMosi = s.sdMosi ∧ (s.fatalUpdate c).sdSclk = s.sdSclk ∧
    (s.fatalUpdate c).pos = s.pos ∧ (s.fatalUpdate c).opArg = s.opArg ∧ (s.fatalUpdate c).ctrl = s.ctrl ∧
    (s.fatalUpdate c).arg = s.arg ∧ (s.fatalUpdate c).done = s.done ∧ (s.fatalUpdate c).cmdLost = s.cmdLost ∧
    (s.fatalUpdate c).code = s.code ∧ (s.fatalUpdate c).ccs = s.ccs ∧ (s.fatalUpdate c).attempts = s.attempts ∧
    (s.fatalUpdate c).lastR1 = s.lastR1 ∧ (s.fatalUpdate c).lastTok = s.lastTok ∧ (s.fatalUpdate c).ocr = s.ocr ∧
    (s.fatalUpdate c).r7 = s.r7 ∧ (s.fatalUpdate c).sesBlocks = s.sesBlocks ∧ (s.fatalUpdate c).rdcrc = s.rdcrc ∧
    (s.fatalUpdate c).cfg = s.cfg ∧ (s.fatalUpdate c).rdbuf = s.rdbuf ∧ (s.fatalUpdate c).hRdata = s.hRdata ∧
    (s.fatalUpdate c).blink = s.blink ∧ (s.fatalUpdate c).mem = s.mem ∧ (s.fatalUpdate c).cardTrace = s.cardTrace ∧
    (s.fatalUpdate c).memReads = s.memReads ∧ (s.fatalUpdate c).ringLog = s.ringLog ∧
    (s.fatalUpdate c).freed = s.freed := by
  unfold State.fatalUpdate
  split <;> [skip; split] <;> simp

@[simp] theorem State.finish_fields (s : State) (c : Code) :
    (s.finish c).par = s.par ∧ (s.finish c).agenda = s.agenda ∧ (s.finish c).miso = s.miso ∧
    (s.finish c).draws = s.draws ∧ (s.finish c).host = s.host ∧ (s.finish c).rstP = s.rstP ∧
    (s.finish c).rstC = s.rstC ∧ (s.finish c).head = s.head ∧ (s.finish c).headG = s.headG ∧
    (s.finish c).tailS = s.tailS ∧ (s.finish c).ovf = s.ovf ∧ (s.finish c).penS = s.penS ∧
    (s.finish c).fatS = (s.fatalUpdate c).fatS ∧ (s.finish c).pLost = s.pLost ∧ (s.finish c).pq = s.pq ∧
    (s.finish c).markArmed = s.markArmed ∧ (s.finish c).mport = s.mport ∧ (s.finish c).memReq = s.memReq ∧
    (s.finish c).tailB = s.tailB ∧ (s.finish c).tailG = s.tailG ∧ (s.finish c).headS = s.headS ∧
    (s.finish c).ovfS = s.ovfS ∧ (s.finish c).plostS = s.plostS ∧ (s.finish c).fatalC = (s.fatalUpdate c).fatalC ∧
    (s.finish c).session = s.session ∧ (s.finish c).fast = s.fast ∧ (s.finish c).sdCsN = s.sdCsN ∧
    (s.finish c).sdMosi = s.sdMosi ∧ (s.finish c).sdSclk = s.sdSclk ∧ (s.finish c).pos = .idle ∧
    (s.finish c).opArg = s.opArg ∧ (s.finish c).ctrl = s.ctrl ∧ (s.finish c).arg = s.arg ∧ (s.finish c).done = true ∧
    (s.finish c).cmdLost = s.cmdLost ∧ (s.finish c).code = c ∧ (s.finish c).ccs = s.ccs ∧
    (s.finish c).attempts = s.attempts ∧ (s.finish c).lastR1 = s.lastR1 ∧ (s.finish c).lastTok = s.lastTok ∧
    (s.finish c).ocr = s.ocr ∧ (s.finish c).r7 = s.r7 ∧ (s.finish c).sesBlocks = s.sesBlocks ∧
    (s.finish c).rdcrc = s.rdcrc ∧ (s.finish c).cfg = s.cfg ∧ (s.finish c).rdbuf = s.rdbuf ∧
    (s.finish c).hRdata = s.hRdata ∧ (s.finish c).blink = s.blink ∧ (s.finish c).mem = s.mem ∧
    (s.finish c).cardTrace = s.cardTrace ∧ (s.finish c).memReads = s.memReads ∧ (s.finish c).ringLog = s.ringLog ∧
    (s.finish c).freed = s.freed := by
  simp [State.finish]

@[simp] theorem State.arm_fields (s : State) (pSync : Bool) :
    (s.arm pSync).par = s.par ∧ (s.arm pSync).agenda = s.agenda ∧ (s.arm pSync).miso = s.miso ∧
    (s.arm pSync).draws = s.draws ∧ (s.arm pSync).host = s.host ∧ (s.arm pSync).rstP = s.rstP ∧
    (s.arm pSync).rstC = s.rstC ∧ (s.arm pSync).head = s.head ∧ (s.arm pSync).headG = s.headG ∧
    (s.arm pSync).tailS = s.tailS ∧ (s.arm pSync).ovf = s.ovf ∧ (s.arm pSync).penS = s.penS ∧
    (s.arm pSync).fatS = s.fatS ∧ (s.arm pSync).pLost = s.pLost ∧ (s.arm pSync).pq = s.pq ∧
    (s.arm pSync).mport = s.mport ∧ (s.arm pSync).memReq = s.memReq ∧ (s.arm pSync).tailB = s.tailB ∧
    (s.arm pSync).tailG = s.tailG ∧ (s.arm pSync).headS = s.headS ∧ (s.arm pSync).ovfS = s.ovfS ∧
    (s.arm pSync).plostS = s.plostS ∧ (s.arm pSync).fatalC = s.fatalC ∧ (s.arm pSync).session = s.session ∧
    (s.arm pSync).fast = s.fast ∧ (s.arm pSync).sdCsN = s.sdCsN ∧ (s.arm pSync).sdMosi = s.sdMosi ∧
    (s.arm pSync).sdSclk = s.sdSclk ∧ (s.arm pSync).pos = s.pos ∧ (s.arm pSync).opArg = s.opArg ∧
    (s.arm pSync).ctrl = s.ctrl ∧ (s.arm pSync).arg = s.arg ∧ (s.arm pSync).done = s.done ∧
    (s.arm pSync).cmdLost = s.cmdLost ∧ (s.arm pSync).code = s.code ∧ (s.arm pSync).ccs = s.ccs ∧
    (s.arm pSync).attempts = s.attempts ∧ (s.arm pSync).lastR1 = s.lastR1 ∧ (s.arm pSync).lastTok = s.lastTok ∧
    (s.arm pSync).ocr = s.ocr ∧ (s.arm pSync).r7 = s.r7 ∧ (s.arm pSync).sesBlocks = s.sesBlocks ∧
    (s.arm pSync).rdcrc = s.rdcrc ∧ (s.arm pSync).cfg = s.cfg ∧ (s.arm pSync).rdbuf = s.rdbuf ∧
    (s.arm pSync).hRdata = s.hRdata ∧ (s.arm pSync).blink = s.blink ∧ (s.arm pSync).mem = s.mem ∧
    (s.arm pSync).cardTrace = s.cardTrace ∧ (s.arm pSync).memReads = s.memReads ∧ (s.arm pSync).ringLog = s.ringLog ∧
    (s.arm pSync).freed = s.freed := by
  unfold State.arm
  split <;> simp_all

@[simp] theorem State.syncEvent_fields (s : State) :
    (s.syncEvent).par = s.par ∧ (s.syncEvent).agenda = s.agenda ∧ (s.syncEvent).miso = s.miso ∧
    (s.syncEvent).draws = s.draws ∧ (s.syncEvent).host = s.host ∧ (s.syncEvent).rstP = s.rstP ∧
    (s.syncEvent).rstC = s.rstC ∧ (s.syncEvent).head = s.head ∧ (s.syncEvent).headG = s.headG ∧
    (s.syncEvent).tailS = s.tailS ∧ (s.syncEvent).ovf = s.ovf ∧ (s.syncEvent).penS = s.penS ∧
    (s.syncEvent).fatS = s.fatS ∧ (s.syncEvent).pLost = s.pLost ∧ (s.syncEvent).mport = s.mport ∧
    (s.syncEvent).memReq = s.memReq ∧ (s.syncEvent).tailB = s.tailB ∧ (s.syncEvent).tailG = s.tailG ∧
    (s.syncEvent).headS = s.headS ∧ (s.syncEvent).ovfS = s.ovfS ∧ (s.syncEvent).plostS = s.plostS ∧
    (s.syncEvent).fatalC = s.fatalC ∧ (s.syncEvent).session = s.session ∧ (s.syncEvent).fast = s.fast ∧
    (s.syncEvent).sdCsN = s.sdCsN ∧ (s.syncEvent).sdMosi = s.sdMosi ∧ (s.syncEvent).sdSclk = s.sdSclk ∧
    (s.syncEvent).pos = s.pos ∧ (s.syncEvent).opArg = s.opArg ∧ (s.syncEvent).ctrl = s.ctrl ∧
    (s.syncEvent).arg = s.arg ∧ (s.syncEvent).done = s.done ∧ (s.syncEvent).cmdLost = s.cmdLost ∧
    (s.syncEvent).code = s.code ∧ (s.syncEvent).ccs = s.ccs ∧ (s.syncEvent).attempts = s.attempts ∧
    (s.syncEvent).lastR1 = s.lastR1 ∧ (s.syncEvent).lastTok = s.lastTok ∧ (s.syncEvent).ocr = s.ocr ∧
    (s.syncEvent).r7 = s.r7 ∧ (s.syncEvent).sesBlocks = s.sesBlocks ∧ (s.syncEvent).rdcrc = s.rdcrc ∧
    (s.syncEvent).cfg = s.cfg ∧ (s.syncEvent).rdbuf = s.rdbuf ∧ (s.syncEvent).hRdata = s.hRdata ∧
    (s.syncEvent).blink = s.blink ∧ (s.syncEvent).mem = s.mem ∧ (s.syncEvent).cardTrace = s.cardTrace ∧
    (s.syncEvent).memReads = s.memReads ∧ (s.syncEvent).ringLog = s.ringLog ∧ (s.syncEvent).freed = s.freed := by
  unfold State.syncEvent
  split <;> simp_all

@[simp] theorem State.eventTaken_fields (s : State) :
    (s.eventTaken).par = s.par ∧ (s.eventTaken).miso = s.miso ∧ (s.eventTaken).host = s.host ∧
    (s.eventTaken).rstP = s.rstP ∧ (s.eventTaken).rstC = s.rstC ∧ (s.eventTaken).head = s.head ∧
    (s.eventTaken).headG = s.headG ∧ (s.eventTaken).tailS = s.tailS ∧ (s.eventTaken).ovf = s.ovf ∧
    (s.eventTaken).penS = s.penS ∧ (s.eventTaken).fatS = s.fatS ∧ (s.eventTaken).pLost = s.pLost ∧
    (s.eventTaken).pq = s.pq ∧ (s.eventTaken).markArmed = s.markArmed ∧ (s.eventTaken).mport = s.mport ∧
    (s.eventTaken).memReq = s.memReq ∧ (s.eventTaken).tailB = s.tailB ∧ (s.eventTaken).tailG = s.tailG ∧
    (s.eventTaken).headS = s.headS ∧ (s.eventTaken).ovfS = s.ovfS ∧ (s.eventTaken).plostS = s.plostS ∧
    (s.eventTaken).fatalC = s.fatalC ∧ (s.eventTaken).session = s.session ∧ (s.eventTaken).fast = s.fast ∧
    (s.eventTaken).sdCsN = s.sdCsN ∧ (s.eventTaken).sdMosi = s.sdMosi ∧ (s.eventTaken).sdSclk = s.sdSclk ∧
    (s.eventTaken).pos = s.pos ∧ (s.eventTaken).opArg = s.opArg ∧ (s.eventTaken).ctrl = s.ctrl ∧
    (s.eventTaken).arg = s.arg ∧ (s.eventTaken).done = s.done ∧ (s.eventTaken).cmdLost = s.cmdLost ∧
    (s.eventTaken).code = s.code ∧ (s.eventTaken).ccs = s.ccs ∧ (s.eventTaken).attempts = s.attempts ∧
    (s.eventTaken).lastR1 = s.lastR1 ∧ (s.eventTaken).lastTok = s.lastTok ∧ (s.eventTaken).ocr = s.ocr ∧
    (s.eventTaken).r7 = s.r7 ∧ (s.eventTaken).sesBlocks = s.sesBlocks ∧ (s.eventTaken).rdcrc = s.rdcrc ∧
    (s.eventTaken).cfg = s.cfg ∧ (s.eventTaken).rdbuf = s.rdbuf ∧ (s.eventTaken).hRdata = s.hRdata ∧
    (s.eventTaken).blink = s.blink ∧ (s.eventTaken).mem = s.mem ∧ (s.eventTaken).cardTrace = s.cardTrace ∧
    (s.eventTaken).memReads = s.memReads ∧ (s.eventTaken).ringLog = s.ringLog ∧ (s.eventTaken).freed = s.freed := by
  unfold State.eventTaken
  split <;> simp_all

@[simp] theorem State.blinkEdge_fields (s : State) :
    (s.blinkEdge).par = s.par ∧ (s.blinkEdge).agenda = s.agenda ∧ (s.blinkEdge).miso = s.miso ∧
    (s.blinkEdge).draws = s.draws ∧ (s.blinkEdge).host = s.host ∧ (s.blinkEdge).rstP = s.rstP ∧
    (s.blinkEdge).rstC = s.rstC ∧ (s.blinkEdge).head = s.head ∧ (s.blinkEdge).headG = s.headG ∧
    (s.blinkEdge).tailS = s.tailS ∧ (s.blinkEdge).ovf = s.ovf ∧ (s.blinkEdge).penS = s.penS ∧
    (s.blinkEdge).fatS = s.fatS ∧ (s.blinkEdge).pLost = s.pLost ∧ (s.blinkEdge).pq = s.pq ∧
    (s.blinkEdge).markArmed = s.markArmed ∧ (s.blinkEdge).mport = s.mport ∧ (s.blinkEdge).memReq = s.memReq ∧
    (s.blinkEdge).tailB = s.tailB ∧ (s.blinkEdge).tailG = s.tailG ∧ (s.blinkEdge).headS = s.headS ∧
    (s.blinkEdge).ovfS = s.ovfS ∧ (s.blinkEdge).plostS = s.plostS ∧ (s.blinkEdge).fatalC = s.fatalC ∧
    (s.blinkEdge).session = s.session ∧ (s.blinkEdge).fast = s.fast ∧ (s.blinkEdge).sdCsN = s.sdCsN ∧
    (s.blinkEdge).sdMosi = s.sdMosi ∧ (s.blinkEdge).sdSclk = s.sdSclk ∧ (s.blinkEdge).pos = s.pos ∧
    (s.blinkEdge).opArg = s.opArg ∧ (s.blinkEdge).ctrl = s.ctrl ∧ (s.blinkEdge).arg = s.arg ∧
    (s.blinkEdge).done = s.done ∧ (s.blinkEdge).cmdLost = s.cmdLost ∧ (s.blinkEdge).code = s.code ∧
    (s.blinkEdge).ccs = s.ccs ∧ (s.blinkEdge).attempts = s.attempts ∧ (s.blinkEdge).lastR1 = s.lastR1 ∧
    (s.blinkEdge).lastTok = s.lastTok ∧ (s.blinkEdge).ocr = s.ocr ∧ (s.blinkEdge).r7 = s.r7 ∧
    (s.blinkEdge).sesBlocks = s.sesBlocks ∧ (s.blinkEdge).rdcrc = s.rdcrc ∧ (s.blinkEdge).cfg = s.cfg ∧
    (s.blinkEdge).rdbuf = s.rdbuf ∧ (s.blinkEdge).hRdata = s.hRdata ∧ (s.blinkEdge).mem = s.mem ∧
    (s.blinkEdge).cardTrace = s.cardTrace ∧ (s.blinkEdge).memReads = s.memReads ∧ (s.blinkEdge).ringLog = s.ringLog ∧
    (s.blinkEdge).freed = s.freed := by
  unfold State.blinkEdge
  split <;> simp_all

/-- The registers right after reset; `RDBUF` is left out, since its 512 bytes are a literal that simp would unroll. -/
@[simp] theorem State.resetWith_fields (p : Params) :
    (State.resetWith p).par = p ∧ (State.resetWith p).agenda = [] ∧ (State.resetWith p).miso = [] ∧
    (State.resetWith p).draws = 0 ∧ (State.resetWith p).host = ({ prog := [], line := 0, names := [] } : HostAgent) ∧
    (State.resetWith p).rstP = false ∧ (State.resetWith p).rstC = false ∧ (State.resetWith p).head = 0#32 ∧
    (State.resetWith p).headG = 0#32 ∧ (State.resetWith p).tailS = Chain.const p.s 0#32 ∧
    (State.resetWith p).ovf = false ∧ (State.resetWith p).penS = Chain.const p.s false ∧
    (State.resetWith p).fatS = Chain.const p.s false ∧ (State.resetWith p).pLost = false ∧
    (State.resetWith p).pq = [] ∧ (State.resetWith p).markArmed = true ∧
    (State.resetWith p).mport = ({ ceN := true, weN := true, dqInput := true } : MemPort) ∧
    (State.resetWith p).memReq = none ∧ (State.resetWith p).tailB = 0#32 ∧ (State.resetWith p).tailG = 0#32 ∧
    (State.resetWith p).headS = Chain.const p.s 0#32 ∧ (State.resetWith p).ovfS = Chain.const p.s false ∧
    (State.resetWith p).plostS = Chain.const p.s false ∧ (State.resetWith p).fatalC = .none ∧
    (State.resetWith p).session = .notInit ∧ (State.resetWith p).fast = false ∧ (State.resetWith p).sdCsN = true ∧
    (State.resetWith p).sdMosi = true ∧ (State.resetWith p).sdSclk = false ∧ (State.resetWith p).pos = .idle ∧
    (State.resetWith p).opArg = 0#32 ∧
    (State.resetWith p).ctrl = ({ prodEn := false, ieDone := false, ieReady := false, ieFatal := false } : Ctrl) ∧
    (State.resetWith p).arg = 0#32 ∧ (State.resetWith p).done = false ∧ (State.resetWith p).cmdLost = false ∧
    (State.resetWith p).code = .ok ∧ (State.resetWith p).ccs = false ∧ (State.resetWith p).attempts = 0#3 ∧
    (State.resetWith p).lastR1 = 0xFF#8 ∧ (State.resetWith p).lastTok = 0xFF#8 ∧ (State.resetWith p).ocr = 0#32 ∧
    (State.resetWith p).r7 = 0#32 ∧ (State.resetWith p).sesBlocks = 0#32 ∧ (State.resetWith p).rdcrc = 0#16 ∧
    (State.resetWith p).cfg = Cfg.reset ∧ (State.resetWith p).hRdata = 0#32 ∧ (State.resetWith p).blink = 0 ∧
    (State.resetWith p).mem = [] ∧ (State.resetWith p).cardTrace = [] ∧ (State.resetWith p).memReads = [] ∧
    (State.resetWith p).ringLog = [] ∧ (State.resetWith p).freed = 0 := by
  exact
    ⟨rfl, rfl, rfl, rfl, rfl, rfl, rfl, rfl, rfl, rfl, rfl, rfl, rfl, rfl, rfl, rfl,
    rfl, rfl, rfl, rfl, rfl, rfl, rfl, rfl, rfl, rfl, rfl, rfl, rfl, rfl, rfl, rfl,
    rfl, rfl, rfl, rfl, rfl, rfl, rfl, rfl, rfl, rfl, rfl, rfl, rfl, rfl, rfl, rfl,
    rfl, rfl, rfl, rfl⟩

@[simp] theorem State.resetWith_rdbuf_length (p : Params) : (State.resetWith p).rdbuf.length = 512 :=
  List.length_replicate

@[simp] theorem State.assertReset_fields (s : State) :
    (s.assertReset).par = s.par ∧ (s.assertReset).agenda = s.agenda ∧ (s.assertReset).miso = s.miso ∧
    (s.assertReset).draws = s.draws ∧ (s.assertReset).host = s.host ∧ (s.assertReset).rstP = true ∧
    (s.assertReset).rstC = true ∧ (s.assertReset).head = 0#32 ∧ (s.assertReset).headG = 0#32 ∧
    (s.assertReset).tailS = Chain.const s.par.s 0#32 ∧ (s.assertReset).ovf = false ∧
    (s.assertReset).penS = Chain.const s.par.s false ∧ (s.assertReset).fatS = Chain.const s.par.s false ∧
    (s.assertReset).pLost = false ∧ (s.assertReset).pq = [] ∧ (s.assertReset).markArmed = true ∧
    (s.assertReset).mport = ({ ceN := true, weN := true, dqInput := true } : MemPort) ∧
    (s.assertReset).memReq = none ∧ (s.assertReset).tailB = 0#32 ∧ (s.assertReset).tailG = 0#32 ∧
    (s.assertReset).headS = Chain.const s.par.s 0#32 ∧ (s.assertReset).ovfS = Chain.const s.par.s false ∧
    (s.assertReset).plostS = Chain.const s.par.s false ∧ (s.assertReset).fatalC = .none ∧
    (s.assertReset).session = .notInit ∧ (s.assertReset).fast = false ∧ (s.assertReset).sdCsN = true ∧
    (s.assertReset).sdMosi = true ∧ (s.assertReset).sdSclk = false ∧ (s.assertReset).pos = .idle ∧
    (s.assertReset).opArg = 0#32 ∧
    (s.assertReset).ctrl = ({ prodEn := false, ieDone := false, ieReady := false, ieFatal := false } : Ctrl) ∧
    (s.assertReset).arg = 0#32 ∧ (s.assertReset).done = false ∧ (s.assertReset).cmdLost = false ∧
    (s.assertReset).code = .ok ∧ (s.assertReset).ccs = false ∧ (s.assertReset).attempts = 0#3 ∧
    (s.assertReset).lastR1 = 0xFF#8 ∧ (s.assertReset).lastTok = 0xFF#8 ∧ (s.assertReset).ocr = 0#32 ∧
    (s.assertReset).r7 = 0#32 ∧ (s.assertReset).sesBlocks = 0#32 ∧ (s.assertReset).rdcrc = 0#16 ∧
    (s.assertReset).cfg = Cfg.reset ∧ (s.assertReset).rdbuf = s.rdbuf ∧ (s.assertReset).hRdata = 0#32 ∧
    (s.assertReset).blink = 0 ∧ (s.assertReset).mem = s.mem ∧ (s.assertReset).cardTrace = [] ∧
    (s.assertReset).memReads = [] ∧ (s.assertReset).ringLog = [] ∧ (s.assertReset).freed = 0 := by
  exact
    ⟨rfl, rfl, rfl, rfl, rfl, rfl, rfl, rfl, rfl, rfl, rfl, rfl, rfl, rfl, rfl, rfl,
    rfl, rfl, rfl, rfl, rfl, rfl, rfl, rfl, rfl, rfl, rfl, rfl, rfl, rfl, rfl, rfl,
    rfl, rfl, rfl, rfl, rfl, rfl, rfl, rfl, rfl, rfl, rfl, rfl, rfl, rfl, rfl, rfl,
    rfl, rfl, rfl, rfl, rfl⟩

end Sys2Proof.Machine
end

