-- ==== Sys2Proof/Laws/Ops.lean ====
section
/-!
SUPPORT. One lemma for each shared operation that says once everything it can do, for proofs to cite instead of
unfolding it: the host's command write, a completion, the producer's gate and write, an engine event, a step.
-/

namespace Sys2Proof.Machine

theorem State.halted_eq (s : State) : s.halted = (s.fatal != 0#2) := rfl

theorem State.isBusy_iff (s : State) : s.isBusy = true ↔ s.pos ≠ .idle := by simp [State.isBusy]

theorem State.isBusy_false_iff (s : State) : s.isBusy = false ↔ s.pos = .idle := by simp [State.isBusy]

/-! ### Host commands -/

/-- Everything a non-NOP command word can do before its own checks (41_host_commands.md R143). -/
theorem State.commandWrite_cases (s rest : State) :
    (s.isBusy = true ∧ s.commandWrite rest = { s with cmdLost := true }) ∨
    (s.isBusy = false ∧ s.halted = true ∧ s.commandWrite rest = s.completeNow .eHalted) ∨
    (s.isBusy = false ∧ s.halted = false ∧ s.commandWrite rest = rest) := by
  unfold State.commandWrite
  cases hb : s.isBusy <;> cases hh : s.halted <;> simp

/-- Everything an operation's command word can do: it is lost, it completes at once, or it starts. -/
theorem State.issue_cases (s : State) (op : HostOp) :
    (s.isBusy = true ∧ s.issue op = { s with cmdLost := true }) ∨
    (s.isBusy = false ∧ ∃ c, s.issue op = s.completeNow c) ∨
    (s.isBusy = false ∧ s.halted = false ∧ s.precheck op = none ∧ s.issue op = s.start op) := by
  unfold State.issue
  rcases s.commandWrite_cases (s.checkAndStart op) with ⟨hb, h⟩ | ⟨hb, hh, h⟩ | ⟨hb, hh, h⟩
  · exact .inl ⟨hb, h⟩
  · exact .inr (.inl ⟨hb, _, h⟩)
  · rw [h, State.checkAndStart]
    cases hp : s.precheck op with
    | none => exact .inr (.inr ⟨hb, hh, rfl, rfl⟩)
    | some c => exact .inr (.inl ⟨hb, c, rfl⟩)

/-! ### Completion -/

/-- FATAL_UPDATE does nothing, or sets a FATAL_C that was 0 to the code's class. -/
theorem State.fatalUpdate_cases (s : State) (c : Code) :
    s.fatalUpdate c = s ∨
    (s.fatalC.isSet = false ∧ c.fatalClass.isSet = true ∧ s.fatalUpdate c = s.setFatalC c.fatalClass) := by
  unfold State.fatalUpdate
  cases hs : s.fatalC.isSet <;> cases hc : c.fatalClass.isSet <;> simp

/-- A completion with a code that is no fatal class leaves FATAL_C alone. -/
theorem State.finish_not_fatal (s : State) {c : Code} (h : c.fatalClass.isSet = false) :
    s.finish c = { s with code := c, pos := .idle, done := true } := by
  rcases s.fatalUpdate_cases c with hu | ⟨_, hc, _⟩
  · simp [State.finish, hu]
  · simp [h] at hc

@[simp] theorem State.fatalUpdate_fatS_stages (s : State) (c : Code) :
    (s.fatalUpdate c).fatS.stages = s.fatS.stages := by
  rcases s.fatalUpdate_cases c with h | ⟨_, _, h⟩ <;> simp [h]

/-- What a failed attempt leads to: the next attempt or the end of the operation (43_card_init.md R173, R186). -/
theorem State.attemptFailed_cases (s : State) (att : Nat) (c : Code) :
    (att < s.cfg.maxInit.toNat ∧ s.attemptFailed att c = s.beginAttempt (att + 1)) ∨
    (s.cfg.maxInit.toNat ≤ att ∧ s.attemptFailed att c = ({ s with session := .notInit } : State).finish c) := by
  unfold State.attemptFailed
  split
  · exact .inl ⟨‹_›, rfl⟩
  · exact .inr ⟨by omega, rfl⟩

/-- Everything a pass can lead to. -/
theorem State.passDone_cases (s : State) (p : Pass) (ok : Bool) :
    (∃ q, s.passDone p ok = s.goto (.select (.pass q))) ∨
    (∃ q, s.passDone p ok = ({ s with fast := true } : State).goto (.select (.pass q))) ∨
    (∃ att c, s.passDone p ok = s.attemptFailed att c) ∨
    (∃ c, c.fatalClass.isSet = false ∧ s.passDone p ok = s.finish c) ∨
    s.passDone p ok = ({ s with session := .ready } : State).finish .ok := by
  cases p with
  | cmd0 att left =>
    cases ok <;> cases left <;> first | exact .inl ⟨_, rfl⟩ | exact .inr (.inr (.inl ⟨_, _, rfl⟩))
  | cmd8 att left =>
    cases ok <;> cases left <;> first | exact .inl ⟨_, rfl⟩ | exact .inr (.inr (.inl ⟨_, _, rfl⟩))
  | cmd58Pre att left =>
    cases ok <;> cases left <;> first | exact .inl ⟨_, rfl⟩ | exact .inr (.inr (.inl ⟨_, _, rfl⟩))
  | cmd55Init att outer left =>
    cases ok <;> cases left <;> first | exact .inl ⟨_, rfl⟩ | exact .inr (.inr (.inl ⟨_, _, rfl⟩))
  | acmd41 att outer =>
    cases ok <;> cases outer <;>
      first | exact .inl ⟨_, rfl⟩ | exact .inr (.inl ⟨_, rfl⟩) | exact .inr (.inr (.inl ⟨_, _, rfl⟩))
  | cmd58Post att left =>
    cases ok <;> cases left <;>
      first | exact .inl ⟨_, rfl⟩ | exact .inr (.inr (.inr (.inr rfl))) | exact .inr (.inr (.inl ⟨_, _, rfl⟩))
  | cmd55Erase outer left =>
    cases ok <;> cases left <;>
      first | exact .inl ⟨_, rfl⟩ | exact .inr (.inr (.inr (.inl ⟨.wPreCmd55, rfl, rfl⟩)))
  | acmd23 outer =>
    cases ok <;> cases outer <;>
      first
        | exact .inl ⟨_, rfl⟩
        | exact .inr (.inr (.inr (.inl ⟨.wPreAcmd23, rfl, rfl⟩)))
        | exact .inr (.inr (.inr (.inl ⟨.ok, rfl, rfl⟩)))

/-! ### The engine: what none of its events writes -/

@[simp] theorem State.finish_frame (s : State) (c : Code) :
    (s.finish c).par = s.par ∧ (s.finish c).agenda = s.agenda ∧ (s.finish c).miso = s.miso ∧
    (s.finish c).draws = s.draws ∧ (s.finish c).host = s.host ∧ (s.finish c).rstP = s.rstP ∧
    (s.finish c).rstC = s.rstC ∧ (s.finish c).head = s.head ∧ (s.finish c).headG = s.headG ∧
    (s.finish c).ovf = s.ovf ∧ (s.finish c).penS = s.penS ∧ (s.finish c).pLost = s.pLost ∧ (s.finish c).pq = s.pq ∧
    (s.finish c).markArmed = s.markArmed ∧ (s.finish c).headS = s.headS ∧ (s.finish c).ovfS = s.ovfS ∧
    (s.finish c).plostS = s.plostS ∧ (s.finish c).opArg = s.opArg ∧ (s.finish c).ctrl = s.ctrl ∧
    (s.finish c).arg = s.arg ∧ (s.finish c).cmdLost = s.cmdLost ∧ (s.finish c).cfg = s.cfg ∧
    (s.finish c).hRdata = s.hRdata ∧ (s.finish c).blink = s.blink ∧ (s.finish c).mem = s.mem ∧
    (s.finish c).ringLog = s.ringLog ∧ (s.finish c).mport = s.mport ∧ (s.finish c).tailS.stages = s.tailS.stages ∧
    (s.finish c).fatS.stages = s.fatS.stages := by
  simp

@[simp] theorem State.attemptFailed_frame (s : State) (att : Nat) (c : Code) :
    (s.attemptFailed att c).par = s.par ∧ (s.attemptFailed att c).agenda = s.agenda ∧
    (s.attemptFailed att c).miso = s.miso ∧ (s.attemptFailed att c).draws = s.draws ∧
    (s.attemptFailed att c).host = s.host ∧ (s.attemptFailed att c).rstP = s.rstP ∧
    (s.attemptFailed att c).rstC = s.rstC ∧ (s.attemptFailed att c).head = s.head ∧
    (s.attemptFailed att c).headG = s.headG ∧ (s.attemptFailed att c).ovf = s.ovf ∧
    (s.attemptFailed att c).penS = s.penS ∧ (s.attemptFailed att c).pLost = s.pLost ∧
    (s.attemptFailed att c).pq = s.pq ∧ (s.attemptFailed att c).markArmed = s.markArmed ∧
    (s.attemptFailed att c).headS = s.headS ∧ (s.attemptFailed att c).ovfS = s.ovfS ∧
    (s.attemptFailed att c).plostS = s.plostS ∧ (s.attemptFailed att c).opArg = s.opArg ∧
    (s.attemptFailed att c).ctrl = s.ctrl ∧ (s.attemptFailed att c).arg = s.arg ∧
    (s.attemptFailed att c).cmdLost = s.cmdLost ∧ (s.attemptFailed att c).cfg = s.cfg ∧
    (s.attemptFailed att c).hRdata = s.hRdata ∧ (s.attemptFailed att c).blink = s.blink ∧
    (s.attemptFailed att c).mem = s.mem ∧ (s.attemptFailed att c).ringLog = s.ringLog ∧
    (s.attemptFailed att c).mport = s.mport ∧ (s.attemptFailed att c).tailS.stages = s.tailS.stages ∧
    (s.attemptFailed att c).fatS.stages = s.fatS.stages := by
  rcases s.attemptFailed_cases att c with ⟨_, h⟩ | ⟨_, h⟩ <;> simp [h]

@[simp] theorem State.passDone_frame (s : State) (p : Pass) (ok : Bool) :
    (s.passDone p ok).par = s.par ∧ (s.passDone p ok).agenda = s.agenda ∧ (s.passDone p ok).miso = s.miso ∧
    (s.passDone p ok).draws = s.draws ∧ (s.passDone p ok).host = s.host ∧ (s.passDone p ok).rstP = s.rstP ∧
    (s.passDone p ok).rstC = s.rstC ∧ (s.passDone p ok).head = s.head ∧ (s.passDone p ok).headG = s.headG ∧
    (s.passDone p ok).ovf = s.ovf ∧ (s.passDone p ok).penS = s.penS ∧ (s.passDone p ok).pLost = s.pLost ∧
    (s.passDone p ok).pq = s.pq ∧ (s.passDone p ok).markArmed = s.markArmed ∧ (s.passDone p ok).headS = s.headS ∧
    (s.passDone p ok).ovfS = s.ovfS ∧ (s.passDone p ok).plostS = s.plostS ∧ (s.passDone p ok).opArg = s.opArg ∧
    (s.passDone p ok).ctrl = s.ctrl ∧ (s.passDone p ok).arg = s.arg ∧ (s.passDone p ok).cmdLost = s.cmdLost ∧
    (s.passDone p ok).cfg = s.cfg ∧ (s.passDone p ok).hRdata = s.hRdata ∧ (s.passDone p ok).blink = s.blink ∧
    (s.passDone p ok).mem = s.mem ∧ (s.passDone p ok).ringLog = s.ringLog ∧ (s.passDone p ok).mport = s.mport ∧
    (s.passDone p ok).tailS.stages = s.tailS.stages ∧ (s.passDone p ok).fatS.stages = s.fatS.stages := by
  rcases s.passDone_cases p ok with ⟨_, h⟩ | ⟨_, h⟩ | ⟨_, _, h⟩ | ⟨_, _, h⟩ | h <;> simp [h]

@[simp] theorem State.afterTrail_frame (s : State) (a : After) :
    (s.afterTrail a).par = s.par ∧ (s.afterTrail a).agenda = s.agenda ∧ (s.afterTrail a).miso = s.miso ∧
    (s.afterTrail a).draws = s.draws ∧ (s.afterTrail a).host = s.host ∧ (s.afterTrail a).rstP = s.rstP ∧
    (s.afterTrail a).rstC = s.rstC ∧ (s.afterTrail a).head = s.head ∧ (s.afterTrail a).headG = s.headG ∧
    (s.afterTrail a).ovf = s.ovf ∧ (s.afterTrail a).penS = s.penS ∧ (s.afterTrail a).pLost = s.pLost ∧
    (s.afterTrail a).pq = s.pq ∧ (s.afterTrail a).markArmed = s.markArmed ∧ (s.afterTrail a).headS = s.headS ∧
    (s.afterTrail a).ovfS = s.ovfS ∧ (s.afterTrail a).plostS = s.plostS ∧ (s.afterTrail a).opArg = s.opArg ∧
    (s.afterTrail a).ctrl = s.ctrl ∧ (s.afterTrail a).arg = s.arg ∧ (s.afterTrail a).cmdLost = s.cmdLost ∧
    (s.afterTrail a).cfg = s.cfg ∧ (s.afterTrail a).hRdata = s.hRdata ∧ (s.afterTrail a).blink = s.blink ∧
    (s.afterTrail a).mem = s.mem ∧ (s.afterTrail a).ringLog = s.ringLog ∧ (s.afterTrail a).mport = s.mport ∧
    (s.afterTrail a).tailS.stages = s.tailS.stages ∧ (s.afterTrail a).fatS.stages = s.fatS.stages := by
  cases a <;> simp [State.afterTrail]

@[simp] theorem State.r1Done_frame (s : State) (x : Site) (r : Byte) :
    (s.r1Done x r).par = s.par ∧ (s.r1Done x r).agenda = s.agenda ∧ (s.r1Done x r).miso = s.miso ∧
    (s.r1Done x r).draws = s.draws ∧ (s.r1Done x r).host = s.host ∧ (s.r1Done x r).rstP = s.rstP ∧
    (s.r1Done x r).rstC = s.rstC ∧ (s.r1Done x r).head = s.head ∧ (s.r1Done x r).headG = s.headG ∧
    (s.r1Done x r).ovf = s.ovf ∧ (s.r1Done x r).penS = s.penS ∧ (s.r1Done x r).pLost = s.pLost ∧
    (s.r1Done x r).pq = s.pq ∧ (s.r1Done x r).markArmed = s.markArmed ∧ (s.r1Done x r).headS = s.headS ∧
    (s.r1Done x r).ovfS = s.ovfS ∧ (s.r1Done x r).plostS = s.plostS ∧ (s.r1Done x r).opArg = s.opArg ∧
    (s.r1Done x r).ctrl = s.ctrl ∧ (s.r1Done x r).arg = s.arg ∧ (s.r1Done x r).cmdLost = s.cmdLost ∧
    (s.r1Done x r).cfg = s.cfg ∧ (s.r1Done x r).hRdata = s.hRdata ∧ (s.r1Done x r).blink = s.blink ∧
    (s.r1Done x r).mem = s.mem ∧ (s.r1Done x r).ringLog = s.ringLog ∧ (s.r1Done x r).mport = s.mport ∧
    (s.r1Done x r).tailS.stages = s.tailS.stages ∧ (s.r1Done x r).fatS.stages = s.fatS.stages := by
  unfold State.r1Done
  repeat' split
  all_goals simp

@[simp] theorem State.respDone_frame (s : State) (p : Pass) (v : Word) :
    (s.respDone p v).par = s.par ∧ (s.respDone p v).agenda = s.agenda ∧ (s.respDone p v).miso = s.miso ∧
    (s.respDone p v).draws = s.draws ∧ (s.respDone p v).host = s.host ∧ (s.respDone p v).rstP = s.rstP ∧
    (s.respDone p v).rstC = s.rstC ∧ (s.respDone p v).head = s.head ∧ (s.respDone p v).headG = s.headG ∧
    (s.respDone p v).ovf = s.ovf ∧ (s.respDone p v).penS = s.penS ∧ (s.respDone p v).pLost = s.pLost ∧
    (s.respDone p v).pq = s.pq ∧ (s.respDone p v).markArmed = s.markArmed ∧ (s.respDone p v).headS = s.headS ∧
    (s.respDone p v).ovfS = s.ovfS ∧ (s.respDone p v).plostS = s.plostS ∧ (s.respDone p v).opArg = s.opArg ∧
    (s.respDone p v).ctrl = s.ctrl ∧ (s.respDone p v).arg = s.arg ∧ (s.respDone p v).cmdLost = s.cmdLost ∧
    (s.respDone p v).cfg = s.cfg ∧ (s.respDone p v).hRdata = s.hRdata ∧ (s.respDone p v).blink = s.blink ∧
    (s.respDone p v).mem = s.mem ∧ (s.respDone p v).ringLog = s.ringLog ∧ (s.respDone p v).mport = s.mport ∧
    (s.respDone p v).tailS.stages = s.tailS.stages ∧ (s.respDone p v).fatS.stages = s.fatS.stages := by
  unfold State.respDone
  split <;> simp

@[simp] theorem State.blockAccepted_frame (s : State) (w : WriteKind) :
    (s.blockAccepted w).par = s.par ∧ (s.blockAccepted w).agenda = s.agenda ∧ (s.blockAccepted w).miso = s.miso ∧
    (s.blockAccepted w).draws = s.draws ∧ (s.blockAccepted w).host = s.host ∧ (s.blockAccepted w).rstP = s.rstP ∧
    (s.blockAccepted w).rstC = s.rstC ∧ (s.blockAccepted w).head = s.head ∧ (s.blockAccepted w).headG = s.headG ∧
    (s.blockAccepted w).ovf = s.ovf ∧ (s.blockAccepted w).penS = s.penS ∧ (s.blockAccepted w).pLost = s.pLost ∧
    (s.blockAccepted w).pq = s.pq ∧ (s.blockAccepted w).markArmed = s.markArmed ∧
    (s.blockAccepted w).headS = s.headS ∧ (s.blockAccepted w).ovfS = s.ovfS ∧ (s.blockAccepted w).plostS = s.plostS ∧
    (s.blockAccepted w).opArg = s.opArg ∧ (s.blockAccepted w).ctrl = s.ctrl ∧ (s.blockAccepted w).arg = s.arg ∧
    (s.blockAccepted w).cmdLost = s.cmdLost ∧ (s.blockAccepted w).cfg = s.cfg ∧
    (s.blockAccepted w).hRdata = s.hRdata ∧ (s.blockAccepted w).blink = s.blink ∧ (s.blockAccepted w).mem = s.mem ∧
    (s.blockAccepted w).ringLog = s.ringLog ∧ (s.blockAccepted w).mport = s.mport ∧
    (s.blockAccepted w).tailS.stages = s.tailS.stages ∧ (s.blockAccepted w).fatS.stages = s.fatS.stages := by
  cases w <;> simp [State.blockAccepted]

@[simp] theorem State.classify_frame (s : State) (t : Byte) :
    (s.classify t).par = s.par ∧ (s.classify t).agenda = s.agenda ∧ (s.classify t).miso = s.miso ∧
    (s.classify t).draws = s.draws ∧ (s.classify t).host = s.host ∧ (s.classify t).rstP = s.rstP ∧
    (s.classify t).rstC = s.rstC ∧ (s.classify t).head = s.head ∧ (s.classify t).headG = s.headG ∧
    (s.classify t).ovf = s.ovf ∧ (s.classify t).penS = s.penS ∧ (s.classify t).pLost = s.pLost ∧
    (s.classify t).pq = s.pq ∧ (s.classify t).markArmed = s.markArmed ∧ (s.classify t).headS = s.headS ∧
    (s.classify t).ovfS = s.ovfS ∧ (s.classify t).plostS = s.plostS ∧ (s.classify t).opArg = s.opArg ∧
    (s.classify t).ctrl = s.ctrl ∧ (s.classify t).arg = s.arg ∧ (s.classify t).cmdLost = s.cmdLost ∧
    (s.classify t).cfg = s.cfg ∧ (s.classify t).hRdata = s.hRdata ∧ (s.classify t).blink = s.blink ∧
    (s.classify t).mem = s.mem ∧ (s.classify t).ringLog = s.ringLog ∧ (s.classify t).mport = s.mport ∧
    (s.classify t).tailS.stages = s.tailS.stages ∧ (s.classify t).fatS.stages = s.fatS.stages := by
  unfold State.classify
  repeat' split
  all_goals simp

@[simp] theorem State.drespByte_frame (s : State) (w : WriteKind) (left : Nat) (r : Byte) :
    (s.drespByte w left r).par = s.par ∧ (s.drespByte w left r).agenda = s.agenda ∧
    (s.drespByte w left r).miso = s.miso ∧ (s.drespByte w left r).draws = s.draws ∧
    (s.drespByte w left r).host = s.host ∧ (s.drespByte w left r).rstP = s.rstP ∧
    (s.drespByte w left r).rstC = s.rstC ∧ (s.drespByte w left r).head = s.head ∧
    (s.drespByte w left r).headG = s.headG ∧ (s.drespByte w left r).ovf = s.ovf ∧
    (s.drespByte w left r).penS = s.penS ∧ (s.drespByte w left r).pLost = s.pLost ∧ (s.drespByte w left r).pq = s.pq ∧
    (s.drespByte w left r).markArmed = s.markArmed ∧ (s.drespByte w left r).headS = s.headS ∧
    (s.drespByte w left r).ovfS = s.ovfS ∧ (s.drespByte w left r).plostS = s.plostS ∧
    (s.drespByte w left r).opArg = s.opArg ∧ (s.drespByte w left r).ctrl = s.ctrl ∧
    (s.drespByte w left r).arg = s.arg ∧ (s.drespByte w left r).cmdLost = s.cmdLost ∧
    (s.drespByte w left r).cfg = s.cfg ∧ (s.drespByte w left r).hRdata = s.hRdata ∧
    (s.drespByte w left r).blink = s.blink ∧ (s.drespByte w left r).mem = s.mem ∧
    (s.drespByte w left r).ringLog = s.ringLog ∧ (s.drespByte w left r).mport = s.mport ∧
    (s.drespByte w left r).tailS.stages = s.tailS.stages ∧ (s.drespByte w left r).fatS.stages = s.fatS.stages := by
  unfold State.drespByte
  repeat' split
  all_goals simp

@[simp] theorem State.busyCleared_frame (s : State) (k : BusyKind) :
    (s.busyCleared k).par = s.par ∧ (s.busyCleared k).agenda = s.agenda ∧ (s.busyCleared k).miso = s.miso ∧
    (s.busyCleared k).draws = s.draws ∧ (s.busyCleared k).host = s.host ∧ (s.busyCleared k).rstP = s.rstP ∧
    (s.busyCleared k).rstC = s.rstC ∧ (s.busyCleared k).head = s.head ∧ (s.busyCleared k).headG = s.headG ∧
    (s.busyCleared k).ovf = s.ovf ∧ (s.busyCleared k).penS = s.penS ∧ (s.busyCleared k).pLost = s.pLost ∧
    (s.busyCleared k).pq = s.pq ∧ (s.busyCleared k).markArmed = s.markArmed ∧ (s.busyCleared k).headS = s.headS ∧
    (s.busyCleared k).ovfS = s.ovfS ∧ (s.busyCleared k).plostS = s.plostS ∧ (s.busyCleared k).opArg = s.opArg ∧
    (s.busyCleared k).ctrl = s.ctrl ∧ (s.busyCleared k).arg = s.arg ∧ (s.busyCleared k).cmdLost = s.cmdLost ∧
    (s.busyCleared k).cfg = s.cfg ∧ (s.busyCleared k).hRdata = s.hRdata ∧ (s.busyCleared k).blink = s.blink ∧
    (s.busyCleared k).mem = s.mem ∧ (s.busyCleared k).ringLog = s.ringLog ∧ (s.busyCleared k).mport = s.mport ∧
    (s.busyCleared k).tailS.stages = s.tailS.stages ∧ (s.busyCleared k).fatS.stages = s.fatS.stages := by
  cases k <;> simp [State.busyCleared]

@[simp] theorem State.busyTimeout_frame (s : State) (k : BusyKind) :
    (s.busyTimeout k).par = s.par ∧ (s.busyTimeout k).agenda = s.agenda ∧ (s.busyTimeout k).miso = s.miso ∧
    (s.busyTimeout k).draws = s.draws ∧ (s.busyTimeout k).host = s.host ∧ (s.busyTimeout k).rstP = s.rstP ∧
    (s.busyTimeout k).rstC = s.rstC ∧ (s.busyTimeout k).head = s.head ∧ (s.busyTimeout k).headG = s.headG ∧
    (s.busyTimeout k).ovf = s.ovf ∧ (s.busyTimeout k).penS = s.penS ∧ (s.busyTimeout k).pLost = s.pLost ∧
    (s.busyTimeout k).pq = s.pq ∧ (s.busyTimeout k).markArmed = s.markArmed ∧ (s.busyTimeout k).headS = s.headS ∧
    (s.busyTimeout k).ovfS = s.ovfS ∧ (s.busyTimeout k).plostS = s.plostS ∧ (s.busyTimeout k).opArg = s.opArg ∧
    (s.busyTimeout k).ctrl = s.ctrl ∧ (s.busyTimeout k).arg = s.arg ∧ (s.busyTimeout k).cmdLost = s.cmdLost ∧
    (s.busyTimeout k).cfg = s.cfg ∧ (s.busyTimeout k).hRdata = s.hRdata ∧ (s.busyTimeout k).blink = s.blink ∧
    (s.busyTimeout k).mem = s.mem ∧ (s.busyTimeout k).ringLog = s.ringLog ∧ (s.busyTimeout k).mport = s.mport ∧
    (s.busyTimeout k).tailS.stages = s.tailS.stages ∧ (s.busyTimeout k).fatS.stages = s.fatS.stages := by
  cases k <;> simp [State.busyTimeout]

/-- What no received byte writes: the producer's registers, the host's, the ring. -/
@[simp] theorem State.received_frame (s : State) (r : Byte) :
    (s.received r).par = s.par ∧ (s.received r).agenda = s.agenda ∧ (s.received r).miso = s.miso ∧
    (s.received r).draws = s.draws ∧ (s.received r).host = s.host ∧ (s.received r).rstP = s.rstP ∧
    (s.received r).rstC = s.rstC ∧ (s.received r).head = s.head ∧ (s.received r).headG = s.headG ∧
    (s.received r).ovf = s.ovf ∧ (s.received r).penS = s.penS ∧ (s.received r).pLost = s.pLost ∧
    (s.received r).pq = s.pq ∧ (s.received r).markArmed = s.markArmed ∧ (s.received r).headS = s.headS ∧
    (s.received r).ovfS = s.ovfS ∧ (s.received r).plostS = s.plostS ∧ (s.received r).opArg = s.opArg ∧
    (s.received r).ctrl = s.ctrl ∧ (s.received r).arg = s.arg ∧ (s.received r).cmdLost = s.cmdLost ∧
    (s.received r).cfg = s.cfg ∧ (s.received r).hRdata = s.hRdata ∧ (s.received r).blink = s.blink ∧
    (s.received r).mem = s.mem ∧ (s.received r).ringLog = s.ringLog ∧ (s.received r).mport = s.mport ∧
    (s.received r).tailS.stages = s.tailS.stages ∧ (s.received r).fatS.stages = s.fatS.stages := by
  unfold State.received
  repeat' split
  all_goals simp

end Sys2Proof.Machine
end

