-- ==== Sys2Proof/Laws/PerInstr.lean ====
section
/-!
SUPPORT. The per-instruction family `EncodeFits`: the encoding of an instruction stays within the bits of its format that
carry meaning.
-/

namespace Sys2Proof.Laws.EncodeFits

/-- The bits of a unit that its format tests or takes as operand: OP of a command word (30_encoding.md R105), a byte, or
the 17 bits of a producer word (30_encoding.md R110). -/
def formatBits : Format → Nat
  | .hostop => 4
  | .cardcmd => 8
  | .token => 8
  | .dresp => 8
  | .busy => 8
  | .idle => 8
  | .pevent => 17

/-- The encoding fits the format. -/
def Statement (i : Instr) : Prop := (encode i).toNat < 2 ^ formatBits i.format

theorem nop : Statement .nop := by unfold Statement; decide

theorem init : Statement .init := by unfold Statement; decide

theorem readBlock : Statement .readBlock := by unfold Statement; decide

theorem writeBlock : Statement .writeBlock := by unfold Statement; decide

theorem beginSession : Statement .beginSession := by unfold Statement; decide

theorem writeSegment : Statement .writeSegment := by unfold Statement; decide

theorem endSession : Statement .endSession := by unfold Statement; decide

theorem preErase : Statement .preErase := by unfold Statement; decide

theorem reservedOp (op : BitVec 4) : Statement (.reservedOp op) := by
  simp only [Statement, encode, Instr.format, formatBits, BitVec.toNat_setWidth]
  have := op.isLt
  omega

theorem cmd0 : Statement .cmd0 := by unfold Statement; decide

theorem cmd8 : Statement .cmd8 := by unfold Statement; decide

theorem cmd17 : Statement .cmd17 := by unfold Statement; decide

theorem cmd24 : Statement .cmd24 := by unfold Statement; decide

theorem cmd25 : Statement .cmd25 := by unfold Statement; decide

theorem cmd55 : Statement .cmd55 := by unfold Statement; decide

theorem cmd58 : Statement .cmd58 := by unfold Statement; decide

theorem acmd41 : Statement .acmd41 := by unfold Statement; decide

theorem acmd23 : Statement .acmd23 := by unfold Statement; decide

theorem startBlock : Statement .startBlock := by unfold Statement; decide

theorem startMulti : Statement .startMulti := by unfold Statement; decide

theorem stopTran : Statement .stopTran := by unfold Statement; decide

theorem drespAccepted (tok : Byte) : Statement (.drespAccepted tok) := by
  simp only [Statement, encode, Instr.format, formatBits, BitVec.toNat_setWidth]
  have := tok.isLt
  omega

theorem drespCrcError (tok : Byte) : Statement (.drespCrcError tok) := by
  simp only [Statement, encode, Instr.format, formatBits, BitVec.toNat_setWidth]
  have := tok.isLt
  omega

theorem drespWriteError (tok : Byte) : Statement (.drespWriteError tok) := by
  simp only [Statement, encode, Instr.format, formatBits, BitVec.toNat_setWidth]
  have := tok.isLt
  omega

theorem busy : Statement .busy := by unfold Statement; decide

theorem idle : Statement .idle := by unfold Statement; decide

theorem sample (s : BitVec 16) : Statement (.sample s) := by
  simp only [Statement, encode, Instr.format, formatBits, BitVec.toNat_setWidth]
  have := s.isLt
  omega

theorem sync : Statement .sync := by unfold Statement; decide

end Sys2Proof.Laws.EncodeFits
end

