-- ==== Sys2Proof/Laws/Steps.lean ====
section
/-!
SUPPORT. What one event of each agent can do, as case lists to cite: the producer's gate and write, an exchange, an
engine event, a host write, a step.
-/

namespace Sys2Proof.Machine

/-! ### The producer -/

/-- Everything the gating of a producer event can do (40_ring_buffer.md R120, R121). -/
theorem State.gateEvent_cases (s accept : State) :
    ((s.ovf = true ∨ s.fatP = true ∨ s.penP = false) ∧ s.gateEvent accept = s) ∨
    (s.ovf = false ∧ s.fatP = false ∧ s.penP = true ∧ s.pq = [] ∧ s.gateEvent accept = accept) ∨
    (s.ovf = false ∧ s.fatP = false ∧ s.penP = true ∧ s.pq ≠ [] ∧ s.gateEvent accept = s.setPLost) := by
  unfold State.gateEvent
  cases ho : s.ovf <;> cases hf : s.fatP <;> cases hp : s.penP <;> cases hq : s.pq <;> simp

/-- Everything a P_WRITE can do (40_ring_buffer.md R122, R126). -/
theorem State.producerWrite_cases (s : State) :
    (s.pq = [] ∧ s.producerWrite = s) ∨
    (s.pq ≠ [] ∧ (s.ovf = true ∨ s.fatP = true) ∧ s.producerWrite = { s with pq := [] }) ∨
    (∃ b rest, s.pq = b :: rest ∧ s.ovf = false ∧ s.fatP = false ∧
      addMod s.par.n s.head 1#32 = s.tailP ∧
      s.producerWrite = { (({ s with pq := rest } : State).memWrite s.head b).advanceHead.setOvf with pq := [] }) ∨
    (∃ b rest, s.pq = b :: rest ∧ s.ovf = false ∧ s.fatP = false ∧
      addMod s.par.n s.head 1#32 ≠ s.tailP ∧
      s.producerWrite = (({ s with pq := rest } : State).memWrite s.head b).advanceHead) := by
  unfold State.producerWrite
  cases hq : s.pq with
  | nil => simp
  | cons b rest =>
    by_cases hz : (s.ovf || s.fatP) = true
    · refine .inr (.inl ⟨by simp, by simpa using hz, ?_⟩)
      simp only [hz, if_true]
    · have hz' : s.ovf = false ∧ s.fatP = false := by simpa using hz
      refine .inr (.inr ?_)
      simp only [hz, if_neg, Bool.false_eq_true, not_false_eq_true]
      by_cases h : addMod s.par.n s.head 1#32 = s.tailP
      · exact .inl ⟨b, rest, rfl, hz'.1, hz'.2, h, if_pos h⟩
      · exact .inr ⟨b, rest, rfl, hz'.1, hz'.2, h, if_neg h⟩

/-! ### The engine -/

/-- A position has an XFER exactly when it is no internal one. -/
theorem State.nextTx_none_iff (s : State) : s.nextTx = none ↔ s.pos.port = .internal := by
  unfold State.nextTx
  cases s.pos <;> simp [Pos.port]

/-- The first byte of a frame decodes to its command. -/
theorem State.decode_command (s : State) (x : Site) :
    decode .cardcmd ((s.frameByte x 0).setWidth 32) = .instr x.cmd.instr := by
  unfold State.frameByte State.frameOf
  cases x.cmd <;> simp only [frameBytes, CardCmd.index, List.getD_cons_zero] <;> decide

/-- A byte that no format of the opcode table names, or the instruction that a byte is: either way the engine's XFER
receives it. -/
theorem exec_received {f : Format} {b : Byte} {i : Instr} (hf : f = .idle ∨ f = .token ∨ f = .dresp ∨ f = .busy)
    (h : receivedInstr f b = some i) (s : State) (hb : s.pos ≠ .tokenBlock) (hs : s.pos ≠ .tokenSegment)
    (ht : s.pos ≠ .tokenStop) : exec i s = .next (s.exchange b) := by
  have key : ∀ (f : Format) (b : Byte), (f = .idle ∨ f = .token ∨ f = .dresp ∨ f = .busy) →
      receivedInstr f b = none ∨ receivedInstr f b = some .idle ∧ b = 0xFF#8 ∨
      receivedInstr f b = some .busy ∧ b = 0x00#8 ∨ receivedInstr f b = some .startBlock ∧ b = 0xFE#8 ∨
      receivedInstr f b = some .startMulti ∧ b = 0xFC#8 ∨ receivedInstr f b = some .stopTran ∧ b = 0xFD#8 ∨
      receivedInstr f b = some (.drespAccepted b) ∨ receivedInstr f b = some (.drespCrcError b) ∨
      receivedInstr f b = some (.drespWriteError b) := by
    rintro f b (rfl | rfl | rfl | rfl) <;> revert b <;> decide
  rcases key f b hf with k | ⟨k, rfl⟩ | ⟨k, rfl⟩ | ⟨k, rfl⟩ | ⟨k, rfl⟩ | ⟨k, rfl⟩ | k | k | k <;>
    rw [k] at h <;> cases h <;>
    simp [exec, execIdle, execBusy, execStartBlock, execStartMulti, execStopTran, execDrespAccepted,
      execDrespCrcError, execDrespWriteError, hb, hs, ht]

@[simp] theorem State.answerTaken_nextTx (s : State) : s.answerTaken.nextTx = s.nextTx := by
  simp [State.nextTx, State.frameByte, State.frameOf]

/-- Everything an engine event is: the XFER of its position with the card's next answer, or its internal event. -/
theorem State.engineEvent_cases (s : State) :
    (s.nextTx = none ∧ s.engineEvent = .next s.internal) ∨
    (∃ tx, s.nextTx = some tx ∧
      s.engineEvent = .next ((s.answerTaken.xfer tx s.cardAnswer).received s.cardAnswer)) := by
  have hx : ∀ tx, s.nextTx = some tx →
      s.answerTaken.exchange s.cardAnswer = (s.answerTaken.xfer tx s.cardAnswer).received s.cardAnswer := by
    intro tx h
    simp [State.exchange, h]
  cases hn : s.nextTx with
  | none =>
    left
    have := s.nextTx_none_iff.mp hn
    exact ⟨rfl, by simp [State.engineEvent, this]⟩
  | some tx =>
    right
    refine ⟨tx, rfl, ?_⟩
    rw [← hx tx hn]
    unfold State.engineEvent
    cases hp : s.pos.port with
    | internal => simp [s.nextTx_none_iff.mpr hp] at hn
    | send f =>
      cases hpos : s.pos <;> simp only [hpos, Pos.port, reduceCtorEq, Port.send.injEq] at hp
      · rename_i x
        subst hp
        have hw : s.sentWord = (s.frameByte x 0).setWidth 32 := by simp [State.sentWord, State.nextTx, hpos]
        simp only [State.runWord, hw, s.decode_command x]
        cases hc : x.cmd <;>
          simp [CardCmd.instr, exec, execCmd0, execCmd8, execCmd17, execCmd24, execCmd25, execCmd55, execCmd58,
            execAcmd41, execAcmd23, State.sendCommand, hpos, hc, State.send]
      all_goals
        subst hp
        simp [State.runWord, State.sentWord, State.nextTx, hpos, decode, decodeByteWith, decodeToken, exec,
          execStartBlock, execStartMulti, execStopTran, State.send]
    | receive f =>
      have hf : f = .idle ∨ f = .token ∨ f = .dresp ∨ f = .busy := by
        cases hpos : s.pos <;> simp [hpos, Pos.port] at hp <;> simp [← hp]
      simp only
      cases hr : receivedInstr f s.cardAnswer with
      | none => rfl
      | some i =>
        refine exec_received hf hr _ ?_ ?_ ?_ <;> simp only [State.answerTaken_fields] <;> intro hc <;>
          simp [hc, Pos.port] at hp

/-- An engine event that is an XFER. -/
theorem State.engineEvent_xfer {s : State} {tx : Byte} (h : s.nextTx = some tx) :
    s.engineEvent = .next ((s.answerTaken.xfer tx s.cardAnswer).received s.cardAnswer) := by
  rcases s.engineEvent_cases with ⟨h', _⟩ | ⟨tx', h', he⟩
  · rw [h] at h'
    cases h'
  · rw [h] at h'
    cases h'
    exact he

/-- The same, while the MISO script lasts. -/
theorem State.engineEvent_scripted {s : State} {tx b : Byte} {rest : List Byte} (h : s.nextTx = some tx)
    (hm : s.miso = b :: rest) :
    s.engineEvent = .next (({ s with miso := rest } : State).xfer tx b |>.received b) := by
  rw [State.engineEvent_xfer h]
  simp [State.answerTaken, State.cardAnswer, hm]

/-- An engine event that is no XFER. -/
theorem State.engineEvent_internal {s : State} (h : s.nextTx = none) : s.engineEvent = .next s.internal := by
  rcases s.engineEvent_cases with ⟨_, h'⟩ | ⟨tx', h', _⟩
  · exact h'
  · rw [h] at h'
    cases h'

/-- One event of a run of the engine. -/
theorem State.engineRun_succ {s t : State} (k : Nat) (h : s.engineEvent = .next t) :
    s.engineRun (k + 1) = t.engineRun k := by
  simp [State.engineRun, h]

/-- Everything the arbiter can do for a waiting engine (20_memory.md R69, R71). -/
theorem State.serveRead_cases (s : State) (w : WriteKind) (i : Nat) :
    s.serveRead w i = s ∨
    (∃ off, s.memReq = some off ∧ s.pq = [] ∧ s.rstP = false ∧
      s.serveRead w i =
        { s with
          memReq := none, mport := MemPort.idle, memReads := off :: s.memReads,
          pos := .payload w i (s.ringByte off) }) := by
  unfold State.serveRead
  cases hm : s.memReq with
  | none => exact .inl rfl
  | some off =>
    cases hq : s.pq with
    | nil =>
      cases hr : s.rstP with
      | true => exact .inl rfl
      | false => exact .inr ⟨off, rfl, rfl, rfl, rfl⟩
    | cons b rest => exact .inl rfl

/-- Everything an engine event that is no XFER can do. -/
theorem State.internal_cases (s : State) :
    (s.internal = s ∧ (s.pos = .idle ∨ s.nextTx ≠ none)) ∨
    (s.pos = .idle ∧ s.halted = true ∧ s.sdCsN = false ∧ s.internal = s.setCs true) ∨
    (s.pos = .initBegin ∧ s.internal = ({ s with session := .initializing } : State).beginAttempt 1) ∨
    (∃ att, s.pos = .initDeselect att ∧
      s.internal = (({ s with fast := false } : State).setCs true).goto (.initIdle att (furtherPasses s.cfg.nIdle))) ∨
    (∃ x, s.pos = .select x ∧ s.internal = (s.setCs false).goto (.command x)) ∨
    (∃ a, s.pos = .deselect a ∧ s.internal = (s.setCs true).goto (.trail a)) ∨
    (∃ w i, s.pos = .memRead w i ∧ s.internal = s.serveRead w i) := by
  unfold State.internal
  cases hp : s.pos <;> simp [State.nextTx, hp]
  cases hh : s.halted <;> cases hc : s.sdCsN <;> simp

/-- What no engine event that is no XFER writes. -/
@[simp] theorem State.internal_frame (s : State) :
    s.internal.par = s.par ∧ s.internal.agenda = s.agenda ∧ s.internal.host = s.host ∧ s.internal.rstP = s.rstP ∧
    s.internal.rstC = s.rstC ∧ s.internal.head = s.head ∧ s.internal.headG = s.headG ∧
    s.internal.tailS = s.tailS ∧ s.internal.ovf = s.ovf ∧ s.internal.penS = s.penS ∧ s.internal.fatS = s.fatS ∧
    s.internal.pLost = s.pLost ∧ s.internal.pq = s.pq ∧ s.internal.markArmed = s.markArmed ∧
    s.internal.headS = s.headS ∧ s.internal.ovfS = s.ovfS ∧ s.internal.plostS = s.plostS ∧
    s.internal.opArg = s.opArg ∧ s.internal.ctrl = s.ctrl ∧ s.internal.arg = s.arg ∧
    s.internal.cmdLost = s.cmdLost ∧ s.internal.cfg = s.cfg ∧ s.internal.hRdata = s.hRdata ∧
    s.internal.blink = s.blink ∧ s.internal.mem = s.mem ∧ s.internal.ringLog = s.ringLog := by
  rcases s.internal_cases with ⟨h, _⟩ | ⟨_, _, _, h⟩ | ⟨_, h⟩ | ⟨_, _, h⟩ | ⟨_, _, h⟩ | ⟨_, _, h⟩ | ⟨w, i, _, h⟩
  case inr.inr.inr.inr.inr.inr => rcases s.serveRead_cases w i with h' | ⟨_, _, _, _, h'⟩ <;> rw [h, h'] <;> simp
  all_goals simp [h, State.beginAttempt]

/-- What no engine event writes: the producer's registers, the host's, the ring. -/
theorem State.engineEvent_frame {s t : State} (h : s.engineEvent = .next t) :
    t.par = s.par ∧ t.agenda = s.agenda ∧ t.host = s.host ∧ t.rstP = s.rstP ∧ t.rstC = s.rstC ∧ t.head = s.head ∧
    t.headG = s.headG ∧ t.ovf = s.ovf ∧ t.penS = s.penS ∧ t.pLost = s.pLost ∧ t.pq = s.pq ∧
    t.markArmed = s.markArmed ∧ t.headS = s.headS ∧ t.ovfS = s.ovfS ∧ t.plostS = s.plostS ∧ t.opArg = s.opArg ∧
    t.ctrl = s.ctrl ∧ t.arg = s.arg ∧ t.cmdLost = s.cmdLost ∧ t.cfg = s.cfg ∧
    t.hRdata = s.hRdata ∧ t.blink = s.blink ∧ t.mem = s.mem ∧ t.ringLog = s.ringLog := by
  rcases s.engineEvent_cases with ⟨_, he⟩ | ⟨tx, _, he⟩ <;> rw [he] at h <;> cases h <;> simp

/-! ### The host -/

/-- Every instruction goes on: no meaning ends in a fault or a refusal. -/
theorem exec_next (i : Instr) (s : State) : ∃ t, exec i s = .next t := by
  cases i <;> exact ⟨_, rfl⟩

/-- Everything a command word can do (41_host_commands.md R143). -/
theorem hostCommand_cases (w : Word) {s t : State} (h : exec (decodeHostOp w) s = .next t) :
    t = s ∨ (s.isBusy = true ∧ t = { s with cmdLost := true }) ∨
    (s.isBusy = false ∧ ∃ c, t = s.completeNow c) ∨
    (∃ op, s.isBusy = false ∧ s.halted = false ∧ s.precheck op = none ∧ t = s.start op) := by
  have hop : ∀ op, s.issue op = t → (s.isBusy = true ∧ t = { s with cmdLost := true }) ∨
      (s.isBusy = false ∧ ∃ c, t = s.completeNow c) ∨
      (∃ op, s.isBusy = false ∧ s.halted = false ∧ s.precheck op = none ∧ t = s.start op) := by
    rintro op rfl
    rcases s.issue_cases op with h | h | ⟨hb, hh, hp, h⟩
    · exact .inl h
    · exact .inr (.inl h)
    · exact .inr (.inr ⟨op, hb, hh, hp, h⟩)
  unfold decodeHostOp at h
  split at h <;> simp only [exec] at h
  · exact .inl (by simpa [execNop, eq_comm] using h)
  all_goals right
  · exact hop .init (by simpa [execInit] using h)
  · exact hop .readBlock (by simpa [execReadBlock] using h)
  · exact hop .writeBlock (by simpa [execWriteBlock] using h)
  · exact hop .beginSession (by simpa [execBeginSession] using h)
  · exact hop .writeSegment (by simpa [execWriteSegment] using h)
  · exact hop .endSession (by simpa [execEndSession] using h)
  · exact hop .preErase (by simpa [execPreErase] using h)
  · simp only [execReservedOp] at h
    have h := Host.Outcome.next.inj h
    rcases s.commandWrite_cases (s.completeNow .eBadOp) with ⟨hb, hc⟩ | ⟨hb, _, hc⟩ | ⟨hb, _, hc⟩
    · exact .inl ⟨hb, by rw [← h, hc]⟩
    · exact .inr (.inl ⟨hb, _, by rw [← h, hc]⟩)
    · exact .inr (.inl ⟨hb, _, by rw [← h, hc]⟩)

/-- Everything a write to a register other than CMD can do (10_state.md R40 to R64). -/
theorem State.hostWrite_cases (s : State) (addr : BitVec 12) (v : Word) :
    s.hostWrite addr v = s ∨ s.hostWrite addr v = s.writeCtrl v ∨ s.hostWrite addr v = s.writeStatus v ∨
    (s.isBusy = false ∧ s.hostWrite addr v = { s with arg := v }) ∨
    (s.isBusy = false ∧ ∃ c, s.cfg.write (wordOffset addr) v = some c ∧
      s.hostWrite addr v = { s with cfg := c }) := by
  unfold State.hostWrite
  split
  · exact .inr (.inl rfl)
  · cases hb : s.isBusy <;> simp
  · exact .inr (.inr (.inl rfl))
  · cases hc : s.cfg.write (wordOffset addr) v with
    | none => exact .inl rfl
    | some c => cases hb : s.isBusy <;> simp

/-- Everything a host write can do: a command word to CMD, a register write elsewhere. -/
theorem State.hostWriteEvent_cases {s t : State} {addr : BitVec 12} {v : Word}
    (h : s.hostWriteEvent addr v = .next t) :
    exec (decodeHostOp v) s = .next t ∨ t = s.hostWrite addr v := by
  unfold State.hostWriteEvent at h
  split at h
  · exact .inl (by simpa [State.runWord, decode] using h)
  · exact .inr (by simpa [eq_comm] using h)

/-- Everything a line of the host program can do: a host access, or host-side control. -/
theorem State.hostLineEvent_cases {s t : State} (h : s.hostLineEvent = .next t) :
    t = s ∨ (∃ k addr v, (s.hostGoto k).hostWriteEvent addr v = .next t) ∨
    (∃ k addr host, t = { (s.hostGoto k).hostReadEvent addr with host := host }) ∨
    (∃ k, t = s.hostGoto k) := by
  unfold State.hostLineEvent at h
  split at h
  · exact .inl (by simpa [eq_comm] using h)
  · exact .inr (.inl ⟨_, _, _, h⟩)
  · exact .inr (.inr (.inl ⟨_, _, _, by simpa [eq_comm] using h⟩))
  · exact .inr (.inr (.inr ⟨_, by simpa [eq_comm] using h⟩))
  · exact .inr (.inr (.inr ⟨_, by simpa [eq_comm] using h⟩))

/-! ### The sample port -/

/-- Everything a producer word can do: a SAMPLE or a SYNC event. -/
theorem State.producerPort_cases {s t : State} {w : BitVec 17} (h : s.producerPort w = .next t) :
    (w.getLsbD 16 = true ∧ t = s.gateEvent s.syncEvent) ∨
    (w.getLsbD 16 = false ∧
      t = (s.arm false).gateEvent ((s.arm false).sampleEvent (w.extractLsb' 0 16))) := by
  have hz : (w.setWidth 32 &&& 0xFFFE0000#32) = 0#32 := by
    have hm : ∀ k : Fin 17, (0xFFFE0000#32).getLsbD k = false := by decide
    apply BitVec.eq_of_getLsbD_eq
    intro i hi
    simp only [BitVec.getLsbD_and, BitVec.getLsbD_setWidth, BitVec.getLsbD_zero]
    by_cases h17 : i < 17
    · rw [hm ⟨i, h17⟩, Bool.and_false]
    · rw [BitVec.getLsbD_of_ge w i (by omega), Bool.and_false, Bool.false_and]
  have hw : (w.setWidth 32).extractLsb' 0 17 = w := by
    apply BitVec.eq_of_getLsbD_eq
    intro i hi
    simp [hi, show i < 32 by omega]
  unfold State.producerPort State.runWord at h
  simp only [decode, hz, if_true, hw, decodeProducer] at h
  cases hs : w.getLsbD 16 <;> simp only [hs, if_true, Bool.false_eq_true, if_false] at h
  · exact .inr ⟨rfl, by simpa [exec, execSample, eq_comm] using h⟩
  · exact .inl ⟨rfl, by simpa [exec, execSync, eq_comm] using h⟩

/-! ### One step -/

/-- Which reset holds an event of clk_p. -/
theorem Event.held_producer {e : Event} (s : State) (h : e.inProducerDomain = true) : Event.held e s = s.rstP := by
  unfold Event.inProducerDomain at h
  unfold Event.held
  cases e <;> simp_all

/-- Which reset holds an event of clk_c. -/
theorem Event.held_consumer {e : Event} (s : State) (h : e.inConsumerDomain = true) : Event.held e s = s.rstC := by
  unfold Event.inConsumerDomain at h
  unfold Event.held
  cases e <;> simp_all

/-- An event is dropped while its domain is held in reset, else taken. -/
theorem State.runEvent_cases {s t : State} {e : Event} (h : s.runEvent e = .next t) :
    (Event.held e s = true ∧ t = s) ∨ (Event.held e s = false ∧ s.takeEvent e = .next t) := by
  unfold State.runEvent at h
  cases hh : Event.held e s <;> simp only [hh, if_true, Bool.false_eq_true, if_false] at h
  · exact .inr ⟨rfl, h⟩
  · exact .inl ⟨rfl, by simpa [eq_comm] using h⟩

/-- What a host write can do to the state. -/
inductive HostAction (s : State) : State → Prop
  | nothing : HostAction s s
  | lost : s.isBusy = true → HostAction s { s with cmdLost := true }
  | completed (c : Code) : s.isBusy = false → HostAction s (s.completeNow c)
  | started (op : HostOp) :
    s.isBusy = false → s.halted = false → s.precheck op = none → HostAction s (s.start op)
  | ctrl (v : Word) : HostAction s (s.writeCtrl v)
  | status (v : Word) : HostAction s (s.writeStatus v)
  | arg (v : Word) : s.isBusy = false → HostAction s { s with arg := v }
  | cfg (a : BitVec 12) (v : Word) (c : Cfg) :
    s.isBusy = false → s.cfg.write a v = some c → HostAction s { s with cfg := c }

theorem State.hostWriteEvent_action {s t : State} {addr : BitVec 12} {v : Word}
    (h : s.hostWriteEvent addr v = .next t) : HostAction s t := by
  rcases State.hostWriteEvent_cases h with h | h
  · rcases hostCommand_cases v h with rfl | ⟨hb, rfl⟩ | ⟨hb, c, rfl⟩ | ⟨op, hb, hh, hp, rfl⟩
    · exact .nothing
    · exact .lost hb
    · exact .completed c hb
    · exact .started op hb hh hp
  · rw [h]
    rcases s.hostWrite_cases addr v with h | h | h | ⟨hb, h⟩ | ⟨hb, c, hc, h⟩ <;> rw [h]
    · exact .nothing
    · exact .ctrl v
    · exact .status v
    · exact .arg v hb
    · exact .cfg _ v c hb hc

/-- What an event that its domain takes can do to the state: one constructor for each kind of event, several for the
ports that decode. -/
inductive Action (s : State) : Event → State → Prop
  | read (e : Event) (host : HostAgent) (w : Word) :
    e.inConsumerDomain = true → Action s e { s with host := host, hRdata := w }
  | host (e : Event) (host : HostAgent) (t : State) :
    e.inConsumerDomain = true → HostAction { s with host := host } t → Action s e t
  | sync (w : BitVec 17) : Action s (.producerEvent w) (s.gateEvent s.syncEvent)
  | sample (w : BitVec 17) (v : BitVec 16) :
    Action s (.producerEvent w) ((s.arm false).gateEvent ((s.arm false).sampleEvent v))
  | cycle (pSync : Bool) : Action s (.producerCycle pSync) (s.arm pSync)
  | write : Action s .producerWrite s.producerWrite
  | xfer (tx : Byte) :
    s.nextTx = some tx → Action s .engine ((s.answerTaken.xfer tx s.cardAnswer).received s.cardAnswer)
  | internal : s.nextTx = none → Action s .engine s.internal
  | capture (x : Crossing) (k : Capture) (t : State) : s.sync x k = some t → Action s (.sync x k) t
  | blink : Action s .blink s.blinkEdge
  | reset : Action s .resetAssert s.assertReset
  | releaseP : Action s .resetReleaseP { s with rstP := false }
  | releaseC : Action s .resetReleaseC { s with rstC := false }

/-- Every event that is taken is one of these. -/
theorem State.takeEvent_action {s t : State} {e : Event} (h : s.takeEvent e = .next t) : Action s e t := by
  cases e with
  | hostRead addr => cases h; exact .read _ s.host _ rfl
  | hostWrite addr v => exact .host _ s.host t rfl (State.hostWriteEvent_action h)
  | hostLine =>
    rcases State.hostLineEvent_cases h with rfl | ⟨k, addr, v, h⟩ | ⟨k, addr, host, rfl⟩ | ⟨k, rfl⟩
    · exact .host _ t.host t rfl .nothing
    · exact .host _ _ t rfl (State.hostWriteEvent_action h)
    · exact .read _ host _ rfl
    · exact .host _ _ _ rfl .nothing
  | producerEvent w =>
    rcases State.producerPort_cases h with ⟨_, rfl⟩ | ⟨_, rfl⟩
    · exact .sync w
    · exact .sample w _
  | producerCycle b => cases h; exact .cycle b
  | producerWrite => cases h; exact .write
  | engine =>
    rcases s.engineEvent_cases with ⟨hn, he⟩ | ⟨tx, hn, he⟩
    · cases he.symm.trans h
      exact .internal hn
    · cases he.symm.trans h
      exact .xfer tx hn
  | sync x k =>
    simp only [State.takeEvent, State.syncStep] at h
    cases hs : s.sync x k with
    | none => rw [hs] at h; cases h
    | some u => rw [hs] at h; cases h; exact .capture x k _ hs
  | blink => cases h; exact .blink
  | resetAssert => cases h; exact .reset
  | resetReleaseP => cases h; exact .releaseP
  | resetReleaseC => cases h; exact .releaseC

/-- A step that goes on is the next event of a legal build, dropped or taken. -/
theorem step_cases {s t : State} (h : step s = .next t) :
    s.par.legal = true ∧
      ((Event.held s.nextEvent s.eventTaken = true ∧ t = s.eventTaken) ∨
        (Event.held s.nextEvent s.eventTaken = false ∧ Action s.eventTaken s.nextEvent t)) := by
  unfold step at h
  cases hl : s.par.legal <;> simp only [hl, if_true, Bool.false_eq_true, if_false] at h
  · cases h
  · refine ⟨rfl, ?_⟩
    rcases State.runEvent_cases h with h | ⟨hh, h⟩
    · exact .inl h
    · exact .inr ⟨hh, State.takeEvent_action h⟩

end Sys2Proof.Machine
end

