-- ==== Sys2Proof/Machine/HostProgram.lean ====
section
/-!
DEFINITION. The pseudo-instructions of the host notation (30_encoding.md R116), expanded at the line where they
stand, where `t` is the name a polling loop binds, and the end of a run of a host program with what is observed there
(70_reset_and_hazards.md R257).
-/

namespace Sys2Proof.Machine

/-- The offsets the pseudo-instructions name (10_state.md R40). -/
def argOffset : BitVec 12 := 0x008#12
def statusOffset : BitVec 12 := 0x00C#12

/-- `CMD <mnemonic>`. -/
def pseudoCmd (i : Instr) : List HostLine := [.wr cmdOffset (encode i)]

/-- `CMDA <mnemonic>, <v>`. -/
def pseudoCmda (i : Instr) (v : Word) : List HostLine := [.wr argOffset v, .wr cmdOffset (encode i)]

/-- `WAIT` at line `l`: until `DONE = 1`. -/
def pseudoWait (l t : Nat) : List HostLine := [.rd statusOffset t, .bz t 0x2#32 l]

/-- `WAITREADY` at line `l`: until `BLOCK_READY = 1`. -/
def pseudoWaitReady (l t : Nat) : List HostLine := [.rd statusOffset t, .bz t 0x4#32 l]

/-- `ACK`: clear `DONE`. -/
def pseudoAck : List HostLine := [.wr statusOffset 0x2#32]

/-! ### The end of a run (70_reset_and_hazards.md R257) -/

/-- The event is a line of the sample script (30_encoding.md R117): `S`, `Y` or `y0`. -/
def Event.ofSampleScript : Event → Bool
  | .producerEvent _ => true
  | .producerCycle _ => true
  | .hostRead _ => false
  | .hostWrite _ _ => false
  | .hostLine => false
  | .producerWrite => false
  | .engine => false
  | .sync _ _ => false
  | .blink => false
  | .resetAssert => false
  | .resetReleaseP => false
  | .resetReleaseC => false

/-- Every stage holds the source's value. -/
def Chain.settled {α : Type} [DecidableEq α] (c : Chain α) (cur : α) : Bool := c.stages.all fun v => decide (v = cur)

/-- Every synchronizer chain holds its source's value in every stage. -/
def State.chainsSettled (s : State) : Bool :=
  s.headS.settled s.headG && s.tailS.settled s.tailG && s.penS.settled s.ctrl.prodEn &&
    s.fatS.settled s.fatalC.isSet && s.ovfS.settled s.ovf && s.plostS.settled s.pLost

/-- The run has ended: the host is past its last line, no operation runs, `PQ` is empty, no event of the sample script
is left on the agenda, and the chains are settled. -/
def State.runEnded (s : State) : Bool :=
  decide (s.host.prog.length ≤ s.host.line) && !s.isBusy && s.pq.isEmpty &&
    (s.agenda.all fun e => !Event.ofSampleScript e) && s.chainsSettled

/-- The ring bytes written since reset. HEAD starts at 0, so after `k` writes they are the offsets below `k`. -/
def State.writtenBytes (s : State) : Memory := s.mem.filter fun c => decide (c.1 < s.ringLog.length)

/-- The observation at the end of a run: the registers of 10_state.md, the ring bytes written since reset, the
card-port trace and the offsets of the MemReads. What R257 does not list (inputs, the host agent, levels on the ports,
the indicator pattern, the model's own fields) is set to a fixed value, so two runs are observed alike exactly when
these states are equal. -/
def State.observation (s : State) : State :=
  { s with
    agenda := [], miso := [], draws := 0, host := { prog := [], line := 0, names := [] }, rstP := false, rstC := false,
    mport := MemPort.idle, memReq := none, opArg := 0#32, hRdata := 0#32, blink := 0,
    tailS := { s.tailS with old := none }, penS := { s.penS with old := none }, fatS := { s.fatS with old := none },
    headS := { s.headS with old := none }, ovfS := { s.ovfS with old := none },
    plostS := { s.plostS with old := none }, mem := s.writtenBytes, ringLog := [], freed := 0 }

end Sys2Proof.Machine
end

