-- ==== Sys2Proof/Machine/RefCard.lean ====
section
/-!
DEFINITION. The reference card of 60_exceptions.md R237: a card for properties that need a well-behaved one. It is no
part of the block's state; the block itself admits every answer (R236). `Bench` runs the engine against it.
-/

namespace Sys2Proof.Machine

/-- The reference card's receive state. `multi` tells which wait a data block came from. -/
inductive CardReceive where
  | cmd
  | frame (bytes : List Byte)
  | waitSingle
  | waitMulti
  | data (multi : Bool) (n : Nat)
  deriving DecidableEq, Repr

/-- The reference card. Byte `n` of the stored block at address `x` is the cell `512 * x + n`; an unlisted one is 0. -/
structure RefCard where
  idle : Bool
  app : Bool
  queue : List Byte
  receive : CardReceive
  inMulti : Bool
  store : Memory
  wa : Word
  deriving DecidableEq, Repr

/-- The reference card after power-up. 60_exceptions.md R237 gives `idle`, `app`, `Q` and the store; the receive state
CMD and `wa = 0` are the model's: DESIGN CHOICE, log entry 22. -/
def RefCard.reset : RefCard :=
  { idle := true, app := false, queue := [], receive := .cmd, inMulti := false, store := [], wa := 0#32 }

/-- The stored byte `n` of the block at `x`. -/
def RefCard.blockByte (c : RefCard) (x : Word) (n : Nat) : Byte :=
  (Memory.read c.store (512 * x.toNat + n)).getD 0#8

/-- The 512 stored bytes of the block at `x`. -/
def RefCard.blockBytes (c : RefCard) (x : Word) : List Byte := (List.range 512).map (c.blockByte x)

/-- The R1 of an idle or a ready card. -/
def RefCard.r1 (c : RefCard) : Byte := if c.idle then 0x01#8 else 0x00#8

/-- The card appends an answer. -/
def RefCard.answer (c : RefCard) (bs : List Byte) : RefCard := { c with queue := c.queue ++ bs }

/-- A complete frame with index `i` and argument `x`. -/
def RefCard.command (c : RefCard) (i : BitVec 6) (x : Word) : RefCard :=
  let d := { c with receive := .cmd, app := false }
  if i = 0#6 then { d with idle := true }.answer [0x01#8]
  else if i = 8#6 then d.answer [c.r1, 0x00#8, 0x00#8, 0x01#8, 0xAA#8]
  else if i = 58#6 then d.answer [c.r1, 0xC0#8, 0xFF#8, 0x80#8, 0x00#8]
  else if i = 55#6 then { d with app := true }.answer [c.r1]
  else if i = 41#6 ∧ c.app = true then { d with idle := false }.answer [0x00#8]
  else if i = 23#6 ∧ c.app = true then d.answer [0x00#8]
  else if i = 17#6 then d.answer ([0x00#8, 0xFE#8] ++ c.blockBytes x ++ [0x00#8, 0x00#8])
  else if i = 24#6 then { d with receive := .waitSingle, wa := x }.answer [0x00#8]
  else if i = 25#6 then { d with receive := .waitMulti, wa := x, inMulti := true }.answer [0x00#8]
  else d.answer [0x04#8]

/-- The index and argument of six frame bytes (30_encoding.md R90). -/
def parseFrame : List Byte → Option (BitVec 6 × Word)
  | [b0, b1, b2, b3, b4, _] => some (b0.extractLsb' 0 6, b1 ++ b2 ++ b3 ++ b4)
  | _ => none

/-- The card consumes the byte it was sent. -/
def RefCard.consume (c : RefCard) (tx : Byte) : RefCard :=
  match c.receive with
  | .cmd => if tx &&& 0xC0#8 = 0x40#8 then { c with receive := .frame [tx] } else c
  | .frame bytes =>
    match parseFrame (bytes ++ [tx]) with
    | some (i, x) => c.command i x
    | none => { c with receive := .frame (bytes ++ [tx]) }
  | .waitSingle => if tx = 0xFE#8 then { c with receive := .data false 0 } else c
  | .waitMulti =>
    if tx = 0xFC#8 then { c with receive := .data true 0 }
    else if tx = 0xFD#8 then { c with receive := .cmd, inMulti := false }.answer [0xFF#8, 0x00#8]
    else c
  | .data multi n =>
    if n < 512 then
      { c with receive := .data multi (n + 1), store := Memory.write c.store (512 * c.wa.toNat + n) tx }
    else if n < 513 then { c with receive := .data multi (n + 1) }
    else { c with receive := if multi then .waitMulti else .cmd, wa := c.wa + 1#32 }.answer [0xE5#8, 0x00#8]

/-- One XFER: the card's byte and the card afterwards. A deselected card answers 0xFF and ignores the byte. -/
def RefCard.transfer (c : RefCard) (csN : Bool) (tx : Byte) : Byte × RefCard :=
  if csN then (idleByte, c)
  else (c.queue.headD idleByte, { c with queue := c.queue.tail }.consume tx)

/-- A `CS(v)` event: deselecting clears the answers and the receive state, except inside a multi-block write. -/
def RefCard.chipSelect (c : RefCard) (v : Bool) : RefCard :=
  if v && !c.inMulti then { c with queue := [], receive := .cmd } else c

/-- The block and the reference card. -/
structure Bench where
  block : State
  card : RefCard
  deriving DecidableEq, Repr

/-- One engine event with the reference card answering. -/
def Bench.engineEvent (b : Bench) : Host.Outcome Bench Fault Refusal :=
  match b.block.nextTx with
  | some tx =>
    let answered := b.card.transfer b.block.sdCsN tx
    match { b.block with miso := answered.1 :: b.block.miso }.engineEvent with
    | .next t => .next { block := t, card := answered.2 }
    | .fault f => .fault f
    | .refused r => .refused r
  | none =>
    match b.block.engineEvent with
    | .next t =>
      match t.cardTrace.length - b.block.cardTrace.length, t.cardTrace with
      | 1, .cs v :: _ => .next { block := t, card := b.card.chipSelect v }
      | _, _ => .next { block := t, card := b.card }
    | .fault f => .fault f
    | .refused r => .refused r

end Sys2Proof.Machine
end

