-- ==== Sys2Proof/Machine/Waveforms.lean ====
section
/-!
DEFINITION. The signal sequences behind the two atomic accesses: one XFER bit by bit (42_card_transport.md R160) and
one ring access phase by phase (20_memory.md R68). No other rule depends on them.
-/

namespace Sys2Proof.Machine

/-- The card-port lines at one moment. -/
structure SpiLevels where
  sclk : Bool
  mosi : Bool
  deriving DecidableEq, Repr

/-- The two half-periods of bit `k`: `sd_mosi` is set before the rising edge and held while the clock is high. -/
def spiBit (tx : Byte) (k : Nat) : List SpiLevels :=
  [{ sclk := false, mosi := tx.getLsbD k }, { sclk := true, mosi := tx.getLsbD k }]

/-- The lines during `XFER(tx)`, most significant bit first, and back at idle (42_card_transport.md R159, R160). -/
def spiWave (tx : Byte) : List SpiLevels :=
  [7, 6, 5, 4, 3, 2, 1, 0].flatMap (spiBit tx) ++ [{ sclk := false, mosi := true }]

/-- The byte assembled from the `sd_miso` samples of the eight rising edges, in time order: the first is bit 7. -/
def spiReceive (miso : List Bool) : Byte :=
  miso.foldl (fun acc b => (acc <<< 1) ||| (if b then 0x01#8 else 0x00#8)) 0#8

/-- The ring memory port's signals at one moment; `dq` is the level driven, none while `m_dq` is an input. -/
structure MemLevels where
  addr : Option Word
  dq : Option Byte
  ceN : Bool
  weN : Bool
  deriving DecidableEq, Repr

/-- The phases of `MemWrite(off, v)`: drive, assert the chip enable, pulse the write enable low and back high, deassert
(20_memory.md R68). -/
def memWriteWave (off : Word) (v : Byte) : List MemLevels :=
  [ { addr := some off, dq := some v, ceN := true, weN := true },
    { addr := some off, dq := some v, ceN := false, weN := true },
    { addr := some off, dq := some v, ceN := false, weN := false },
    { addr := some off, dq := some v, ceN := false, weN := true },
    { addr := none, dq := none, ceN := true, weN := true } ]

/-- The phases of `MemRead(off)`: turn `m_dq` to input, drive the address, assert the chip enable (and sample),
deassert (20_memory.md R68). -/
def memReadWave (off : Word) : List MemLevels :=
  [ { addr := none, dq := none, ceN := true, weN := true },
    { addr := some off, dq := none, ceN := true, weN := true },
    { addr := some off, dq := none, ceN := false, weN := true },
    { addr := none, dq := none, ceN := true, weN := true } ]

end Sys2Proof.Machine
end

