-- ==== Sys2Proof/Tests/Slice0.lean ====
section
/-!
SUPPORT. Tests on fixed values, and a witness for the hypotheses of every statement that has some. Every expected value is
the spec's: from its encodings, its rules or the worked examples of 95_test_vectors.md, which each comment names.
-/

namespace Sys2Proof.Tests

open Sys2Proof Sys2Proof.Machine

/-! ### WellFormed: each check refuses an ill-formed term -/

theorem test_wf_reserved_op : (Instr.reservedOp 0x7#4).wf = false := by decide
theorem test_wf_dresp_accepted : (Instr.drespAccepted 0x0B#8).wf = false := by decide
theorem test_wf_dresp_crc_error : (Instr.drespCrcError 0x05#8).wf = false := by decide
theorem test_wf_dresp_write_error : (Instr.drespWriteError 0x0F#8).wf = false := by decide

/-! ### Decode: the words of 30_encoding.md -/

/-- R105, R106: OP is bits 3:0, bits 31:4 are ignored. -/
theorem test_decode_hostop :
    [0x0#32, 0x1#32, 0x2#32, 0xFFFFFFF3#32, 0x4#32, 0x5#32, 0x16#32, 0x7#32, 0x8#32, 0xF#32].map (decode .hostop) =
      [.instr .nop, .instr .init, .instr .readBlock, .instr .writeBlock, .instr .beginSession, .instr .writeSegment,
        .instr .endSession, .instr .preErase, .instr (.reservedOp 0x8#4), .instr (.reservedOp 0xF#4)] := by decide

/-- R90, R93: byte 0 is `01` and the index 0, 8, 17, 24, 25, 55, 58, 41, 23. -/
theorem test_decode_cardcmd :
    [0b01000000#32, 0b01001000#32, 0b01010001#32, 0b01011000#32, 0b01011001#32, 0b01110111#32, 0b01111010#32,
      0b01101001#32, 0b01010111#32].map (decode .cardcmd) =
      [.instr .cmd0, .instr .cmd8, .instr .cmd17, .instr .cmd24, .instr .cmd25, .instr .cmd55, .instr .cmd58,
        .instr .acmd41, .instr .acmd23] := by decide

/-- R91, R94: bits 7:6 must be 01, and CMD12 is never sent. -/
theorem test_decode_cardcmd_rejects :
    [0b11010001#32, 0b01001100#32, 0x140#32].map (decode .cardcmd) =
      [.rejected .notACommandByte, .rejected .commandNeverSent, .rejected .widerThanAByte] := by decide

/-- R100. -/
theorem test_decode_token :
    [0b11111110#32, 0b11111100#32, 0b11111101#32, 0xFF#32].map (decode .token) =
      [.instr .startBlock, .instr .startMulti, .instr .stopTran, .rejected .notADataToken] := by decide

/-- R101: bits 4:0 are tested, bits 7:5 are kept; the bytes of W3. -/
theorem test_decode_dresp :
    [0xE5#32, 0x0B#32, 0xED#32, 0x1F#32].map (decode .dresp) =
      [.instr (.drespAccepted 0xE5#8), .instr (.drespCrcError 0x0B#8), .instr (.drespWriteError 0xED#8),
        .rejected .undefinedDataResponse] := by decide

/-- R102, R103. -/
theorem test_decode_busy_idle :
    [decode .busy 0x00#32, decode .busy 0x01#32, decode .idle 0xFF#32, decode .idle 0x7F#32] =
      [.instr .busy, .rejected .notBusy, .instr .idle, .rejected .notIdle] := by decide

/-- R110: bit 16 is p_sync, bits 15:0 are p_sample, which a SYNC event ignores. -/
theorem test_decode_producer :
    [0b01011111011101111#32, 0b11011111011101111#32, 0b100000000000000000#32].map (decode .pevent) =
      [.instr (.sample 0xBEEF#16), .instr .sync, .rejected .widerThanAProducerWord] := by decide

/-- The opcode table's words as the host numbers them. -/
theorem test_decode_table_word :
    [decodeTableWord 8 0x01, decodeTableWord 8 0x48, decodeTableWord 8 0xFE, decodeTableWord 8 0x0D,
      decodeTableWord 8 0xFF, decodeTableWord 24 0x01234, decodeTableWord 24 0x10000] =
      [some .init, some .cmd8, some .startBlock, some (.drespWriteError 0x0D#8), some .idle,
        some (.sample 0x1234#16), some .sync] := by decide

/-! ### Small states -/

/-- A value of the next state. -/
def after {α : Type} (f : State → α) : Host.Outcome State Fault Refusal → Option α
  | .next t => some (f t)
  | .fault _ => none
  | .refused _ => none

/-- After reset, with the engine at a position of a running operation, the card selected. -/
def running (p : Pos) : State := { State.reset with pos := p, sdCsN := false, session := .ready, fast := true }

/-- After reset, with this SESSION. -/
def ready (v : Session) : State := { State.reset with session := v, fast := true, arg := 0x1000#32 }

/-- A ready state in which one block is available: HEAD_C is 512. -/
def filled (v : Session) : State := { ready v with headS := Chain.const 2 (bin2gray 512#32) }

/-- A halted state: FATAL_C is 2. -/
def haltedState : State := { State.reset with fatalC := .cardNotInitialized }

/-- An enabled, settled producer. -/
def enabled : State := { State.reset with par := { Params.default with n := 10 }, penS := Chain.const 2 true }

/-! ### Host command words (95_test_vectors.md section 4) -/

/-- V-DISP-1, V-DISP-2. -/
theorem test_nop : after (fun t => t.hostRead 0x00C#12) (exec .nop State.reset) = some 0x00000000#32 := by decide

/-- 41_host_commands.md R145: BUSY is 1 and DONE is 0 after the write. -/
theorem test_init_starts :
    after (fun t => (t.isBusy, t.done, t.pos)) (exec .init State.reset) = some (true, false, .initBegin) := by decide

/-- R148: INIT in an open session. -/
theorem test_init_session_open :
    after (fun t => (t.code.byte, t.done)) (exec .init (ready .sessionOpen)) = some (0x51#8, true) := by decide

/-- R148: E_NOT_INIT at reset. -/
theorem test_read_block_not_init :
    after (fun t => t.hostRead 0x00C#12) (exec .readBlock State.reset) = some 0x00005002#32 := by decide

theorem test_read_block_starts :
    after (fun t => (t.opArg, t.pos)) (exec .readBlock (ready .ready)) =
      some (0x1000#32, .select .cmd17) := by decide

/-- R148: WRITE_BLOCK needs BLOCK_READY. -/
theorem test_write_block_no_block :
    after (fun t => t.code.byte) (exec .writeBlock (ready .ready)) = some 0x53#8 := by decide

theorem test_write_block_starts :
    after (fun t => t.pos) (exec .writeBlock (filled .ready)) = some (.select .cmd24) := by decide

theorem test_begin_session_starts :
    after (fun t => (t.pos, t.code)) (exec .beginSession (ready .ready)) =
      some (.select .cmd25, .ok) := by decide

/-- R148: WRITE_SEGMENT in READY. -/
theorem test_write_segment_no_session :
    after (fun t => t.code.byte) (exec .writeSegment (filled .ready)) = some 0x52#8 := by decide

theorem test_write_segment_starts :
    after (fun t => t.pos) (exec .writeSegment (filled .sessionOpen)) = some .tokenSegment := by decide

theorem test_end_session_starts :
    after (fun t => t.pos) (exec .endSession (ready .sessionOpen)) = some .tokenStop := by decide

/-- R154: a halted block. -/
theorem test_end_session_halted :
    after (fun t => t.code.byte) (exec .endSession haltedState) = some 0x55#8 := by decide

/-- R204: N_PRE = 16 outer iterations, N_CMD55 = 10 CMD55 passes in each. -/
theorem test_pre_erase_starts :
    after (fun t => t.pos) (exec .preErase (ready .ready)) =
      some (.select (.pass (.cmd55Erase 15 9))) := by decide

/-- R153 corner case: the write of 0xF at reset. -/
theorem test_reserved_op :
    after (fun t => t.hostRead 0x00C#12) (exec (.reservedOp 0xF#4) State.reset) = some 0x00005402#32 := by decide

/-- R157. -/
theorem test_reserved_op_busy :
    after (fun t => (t.cmdLost, t.code)) (exec (.reservedOp 0x8#4) (running (.select .cmd17))) =
      some (true, .ok) := by decide

/-! ### The card port -/

/-- The first frame byte of each command on the wire, with chip-select low. -/
def sentBy (i : Instr) (x : Site) : Option (Option CardEvent) :=
  after (fun t => t.cardTrace.head?) (exec i { running (.command x) with miso := [0xFF#8] })

theorem test_cmd0 : sentBy .cmd0 (.pass (.cmd0 1 9)) = some (some (.xfer false 0x40#8 0xFF#8)) := by decide
theorem test_cmd8 : sentBy .cmd8 (.pass (.cmd8 1 9)) = some (some (.xfer false 0x48#8 0xFF#8)) := by decide
theorem test_cmd17 : sentBy .cmd17 .cmd17 = some (some (.xfer false 0x51#8 0xFF#8)) := by decide
theorem test_cmd24 : sentBy .cmd24 .cmd24 = some (some (.xfer false 0x58#8 0xFF#8)) := by decide
theorem test_cmd25 : sentBy .cmd25 .cmd25 = some (some (.xfer false 0x59#8 0xFF#8)) := by decide
theorem test_cmd55 : sentBy .cmd55 (.pass (.cmd55Erase 0 0)) = some (some (.xfer false 0x77#8 0xFF#8)) := by decide
theorem test_cmd58 : sentBy .cmd58 (.pass (.cmd58Post 1 9)) = some (some (.xfer false 0x7A#8 0xFF#8)) := by decide
theorem test_acmd41 : sentBy .acmd41 (.pass (.acmd41 1 9)) = some (some (.xfer false 0x69#8 0xFF#8)) := by decide
theorem test_acmd23 : sentBy .acmd23 (.pass (.acmd23 9)) = some (some (.xfer false 0x57#8 0xFF#8)) := by decide

/-- W1: whole frames, with and without CRC_LITERAL. -/
theorem test_frames :
    [frameBytes false 0#6 0#32, frameBytes true 0#6 0#32, frameBytes false 8#6 0x1AA#32,
      frameBytes false 17#6 0x12345678#32, frameBytes false 41#6 0x40000000#32] =
      [[0x40#8, 0#8, 0#8, 0#8, 0#8, 0x95#8], [0x40#8, 0#8, 0#8, 0#8, 0#8, 0x01#8],
        [0x48#8, 0#8, 0#8, 0x01#8, 0xAA#8, 0x87#8], [0x51#8, 0x12#8, 0x34#8, 0x56#8, 0x78#8, 0x01#8],
        [0x69#8, 0x40#8, 0#8, 0#8, 0#8, 0x01#8]] := by decide

/-- R170: 0xFE ends the token poll; R207: WRITE_BLOCK sends it. -/
theorem test_start_block_received :
    after (fun t => (t.pos, t.lastTok)) (exec .startBlock (running (.tokenPoll 5))) =
      some (.readData 0, 0xFE#8) := by decide
theorem test_start_block_sent :
    after (fun t => (t.cardTrace.head?, t.memReq)) (exec .startBlock { running .tokenBlock with miso := [0x12#8] }) =
      some (some (.xfer false 0xFE#8 0x12#8), some 0#32) := by decide

theorem test_start_multi :
    after (fun t => (t.cardTrace.head?, t.pos)) (exec .startMulti { running .tokenSegment with miso := [0xFF#8] }) =
      some (some (.xfer false 0xFC#8 0xFF#8), .memRead .segment 0) := by decide

/-- R202: the stuff byte follows by default, none with CFG_SPI bit 16 at 0. -/
theorem test_stop_tran :
    after (fun t => (t.cardTrace.head?, t.pos)) (exec .stopTran { running .tokenStop with miso := [0xFF#8] }) =
      some (some (.xfer false 0xFD#8 0xFF#8), .stuff) := by decide
theorem test_stop_tran_no_stuff :
    after (fun t => t.pos)
      (exec .stopTran { running .tokenStop with cfg := { Cfg.reset with stopSkip := false, nBusy := 3#32 } }) =
      some (.busyPoll .stop 2) := by decide

/-- W3, R208: 0xE5 is accepted and the tail advances; R199: a segment is counted. -/
theorem test_dresp_accepted_block :
    after (fun t => (t.tailB, t.tailG, t.lastTok)) (exec (.drespAccepted 0xE5#8) (running (.dresp .block 7))) =
      some (1#32, 1#32, 0xE5#8) := by decide
theorem test_dresp_accepted_segment :
    after (fun t => (t.tailB, t.sesBlocks)) (exec (.drespAccepted 0x05#8) (running (.dresp .segment 0))) =
      some (1#32, 1#32) := by decide

/-- W3: 0x0B gives E_WR_CRC; a segment reads on (R172). -/
theorem test_dresp_crc_error_block :
    after (fun t => (t.pos, t.tailB)) (exec (.drespCrcError 0x0B#8) (running (.dresp .block 7))) =
      some (.deselect (.finish .eWrCrc), 0#32) := by decide
theorem test_dresp_crc_error_segment :
    after (fun t => t.pos) (exec (.drespCrcError 0x0B#8) (running (.dresp .segment 7))) =
      some (.dresp .segment 6) := by decide

/-- W3: 0xED gives E_WR_WRITE; the last byte of a segment's poll gives E_SES_DRESP. -/
theorem test_dresp_write_error_block :
    after (fun t => t.pos) (exec (.drespWriteError 0xED#8) (running (.dresp .block 0))) =
      some (.deselect (.finish .eWrWrite)) := by decide
theorem test_dresp_write_error_segment :
    after (fun t => t.pos) (exec (.drespWriteError 0x0D#8) (running (.dresp .segment 0))) =
      some (.deselect (.leave .eSesDresp)) := by decide

/-- R171: the busy byte, and its ceiling. -/
theorem test_busy :
    after (fun t => t.pos) (exec .busy (running (.busyPoll .segment 4))) = some (.busyPoll .segment 3) := by decide
theorem test_busy_ceiling :
    after (fun t => t.pos) (exec .busy (running (.busyPoll .stop 0))) =
      some (.deselect (.leave .eSesEndBusy)) := by decide

/-- R165: 0xFF is no response yet; R197: it ends a segment's busy poll with OK. -/
theorem test_idle_poll :
    after (fun t => (t.pos, t.lastR1)) (exec .idle (running (.poll .cmd17 3))) =
      some (.poll .cmd17 2, 0xFF#8) := by decide
theorem test_idle_busy_poll :
    after (fun t => (t.code, t.done, t.isBusy)) (exec .idle (running (.busyPoll .segment 3))) =
      some (.ok, true, false) := by decide

/-! ### The producer (95_test_vectors.md section 3) -/

/-- V-PROD-1. -/
theorem test_sample : after (fun t => t.pq) (exec (.sample 0x1234#16) enabled) = some [0x34#8, 0x12#8] := by decide

/-- V-PROD-3. -/
theorem test_sample_while_busy :
    after (fun t => (t.pLost, t.pq)) (exec (.sample 0x5555#16) { enabled with pq := [0x12#8] }) =
      some (true, [0x12#8]) := by decide

/-- V-MARK-1, cycle 1. -/
theorem test_sync :
    after (fun t => (t.pq, t.markArmed)) (exec .sync enabled) =
      some ([0xFF#8, 0xFF#8, 0x00#8, 0x00#8, 0xFF#8, 0xFF#8, 0x00#8, 0x00#8], false) := by decide

/-- V-MARK-2. -/
theorem test_sync_lost :
    after (fun t => (t.pLost, t.markArmed)) (exec .sync { enabled with pq := [0x12#8] }) =
      some (true, true) := by decide

/-- V-PROD-4: wrap without overflow. -/
theorem test_write_wraps :
    after (fun t => (t.mem, t.head, t.ovf))
      (.next { enabled with head := 0x3FF#32, tailS := Chain.const 2 1#32, pq := [0xAB#8] }.producerWrite) =
      some ([(0x3FF, 0xAB#8)], 0#32, false) := by decide

/-- V-MARK-3, the fourth write: overflow, the rest of the marker is discarded. -/
theorem test_write_overflows :
    after (fun t => (t.head, t.ovf, t.pq))
      (.next { enabled with head := 0x3FF#32, pq := [0x00#8, 0xFF#8] }.producerWrite) =
      some (0#32, true, []) := by decide

/-! ### Other steps -/

/-- V-GRAY-1. -/
theorem test_gray :
    [bin2gray 0x12345#32, bin2gray 0x1FF#32, gray2bin 18 0x1B2E7#32, gray2bin 10 0x200#32] =
      [0x1B2E7#32, 0x100#32, 0x12345#32, 0x3FF#32] := by decide

/-- V-SYNC-1: HEAD_G changed from 1 to 3; the next capture is either, never another value. -/
theorem test_sync_capture :
    [Capture.current, .previous, .bits 3#32, .bits 2#32].map
        (fun k => ({ stages := [0#32, 0#32], old := some 1#32 } : Chain Word).sync id 3#32 k) =
      [some { stages := [3#32, 0#32], old := none }, some { stages := [1#32, 0#32], old := none },
        some { stages := [3#32, 0#32], old := none }, none] := by decide

/-- 70_reset_and_hazards.md R240, and the memory's canonical form at reset. -/
theorem test_reset_registers :
    [0x00C#12, 0x010#12, 0x02C#12, 0x068#12, 0x074#12, 0x200#12].map State.reset.hostRead =
      [0#32, 0x0000FFFF#32, 0x00001212#32, 0x000FFFFF#32, 0x0001007F#32, 0#32] := by decide
theorem test_reset_memory : Memory.wf State.reset.mem := by decide

/-- The very next step runs the placed instruction: from reset a command word, a producer word, a card byte. -/
theorem test_fetch_hostop :
    after (fun t => t.pos) (step (State.reset.withFetchWord 8 0x1)) = some .initBegin := by decide
theorem test_fetch_producer :
    after (fun t => t.pq) (step (enabled.withFetchWord 24 0x01234)) = some [0x34#8, 0x12#8] := by decide
theorem test_fetch_card_byte :
    after (fun t => t.pos) (step (State.reset.withFetchWord 8 0xFE)) = some (.readData 0) := by decide

/-- INIT runs, and the trailing byte of the last ACMD41 is next. -/
def beforeStepUp : State :=
  { State.reset.start .init with pos := .trail (.pass (.acmd41 1 0) true), miso := [0xFF#8] }

/-- R74, R183: FAST rises after ACMD41 and is read live, while INIT runs on; R161: the SPI clock has it at once. -/
theorem test_fast_live :
    after (fun t => (t.isBusy, (t.hostRead 0x00C#12).getLsbD 7, t.xferCycles)) beforeStepUp.engineEvent =
      some (true, true, 16) := by decide

/-- The rules of FAST leave no room for R158 read literally: whatever a read of STATUS is, if its bit 7 is the register
FAST (R44, R38) at the cycle of the read (R74), then R183's `FAST <- 1` shows between two busy states (log entry 29). -/
theorem fast_visible_under_r44 (status : State → Word) (h : ∀ s, (status s).getLsbD 7 = s.fast) :
    ∃ s t : State, s.engineEvent = .next t ∧ s.isBusy = true ∧ t.isBusy = true ∧
      (status s).getLsbD 7 = false ∧ (status t).getLsbD 7 = true := by
  have hb : after (fun t => (t.isBusy, t.fast)) beforeStepUp.engineEvent = some (true, true) := by decide
  cases he : beforeStepUp.engineEvent with
  | next t =>
    simp only [he, after, Option.some.injEq, Prod.mk.injEq] at hb
    exact ⟨beforeStepUp, t, he, by decide, hb.1, (h _).trans (by decide), (h t).trans hb.2⟩
  | fault f => simp [he, after] at hb
  | refused r => simp [he, after] at hb

/-- R228: fatal code 2 is two pulses on `ind_a`, then one on `ind_b`, and again. -/
theorem test_indicators :
    (List.range 7).map (fun k => ((State.blinkEdge^[k] haltedState).indA, (State.blinkEdge^[k] haltedState).indB)) =
      [(true, false), (false, false), (true, false), (false, false), (false, true), (false, false), (true, false)] := by
  decide

/-- R257: nothing is left to do at reset; a sample on the agenda, or a chain that lags, keeps the run going. -/
theorem test_run_ended :
    State.reset.runEnded = true ∧
    ({ State.reset with agenda := [.producerEvent 0x01234#17] } : State).runEnded = false ∧
    ({ State.reset with pLost := true } : State).runEnded = false := by decide

/-! ### Good states -/

/-- The data invariant right after reset. -/
theorem test_reset_dataInv : DataInv State.reset where
  legal := by decide
  memory := by decide
  offsets := by decide
  head := by decide
  headG := by decide
  tailB := by decide
  tailG := by decide
  headS := rfl
  tailS := rfl
  penS := rfl
  fatS := rfl
  ovfS := rfl
  plostS := rfl
  headView := fun g hg => by rw [List.eq_of_mem_replicate hg]; decide
  headOld := fun _ h => by cases h
  tailView := fun g hg => by rw [List.eq_of_mem_replicate hg]; decide
  tailOld := fun _ h => by cases h
  fatSticky := ⟨by decide, fun _ h => by cases h⟩
  ovfSticky := ⟨by decide, fun _ h => by cases h⟩
  plostSticky := ⟨by decide, fun _ h => by cases h⟩
  queue := by decide
  frozenQueue := by decide
  ceilings := by constructor <;> decide
  buffer := List.length_replicate
  mosi := rfl
  sclk := rfl
  mport := rfl
  counters := trivial
  request := rfl
  blink := by decide

theorem test_enabled_dataInv : DataInv enabled where
  legal := by decide
  memory := by decide
  offsets := by decide
  head := by decide
  headG := by decide
  tailB := by decide
  tailG := by decide
  headS := rfl
  tailS := rfl
  penS := rfl
  fatS := rfl
  ovfS := rfl
  plostS := rfl
  headView := fun g hg => by rw [List.eq_of_mem_replicate hg]; decide
  headOld := fun _ h => by cases h
  tailView := fun g hg => by rw [List.eq_of_mem_replicate hg]; decide
  tailOld := fun _ h => by cases h
  fatSticky := ⟨by decide, fun _ h => by cases h⟩
  ovfSticky := ⟨by decide, fun _ h => by cases h⟩
  plostSticky := ⟨by decide, fun _ h => by cases h⟩
  queue := by decide
  frozenQueue := by decide
  ceilings := by constructor <;> decide
  buffer := List.length_replicate
  mosi := rfl
  sclk := rfl
  mport := rfl
  counters := trivial
  request := rfl
  blink := by decide

/-- A build with N = 10 whose ring holds `n` bytes 0, all seen by the consumer, with the engine at `p`. -/
def ringState (n : Nat) (p : Pos) : State :=
  { enabled with
    head := BitVec.ofNat 32 n, headG := bin2gray (BitVec.ofNat 32 n),
    headS := Chain.const 2 (bin2gray (BitVec.ofNat 32 n)),
    mem := (List.range n).map fun k => (k, 0#8), ringLog := List.replicate n 0#8, pos := p,
    memReq := enabled.requestAt p }

theorem read_map_range (n k : Nat) (h : k < n) :
    Memory.read ((List.range n).map fun k => (k, 0#8)) k = some 0#8 := by
  have key : ∀ (l : List Nat), k ∈ l → Memory.read (l.map fun k => (k, 0#8)) k = some 0#8 := by
    intro l
    induction l with
    | nil => simp
    | cons a l ih =>
      intro hk
      by_cases hak : a = k
      · simp [Memory.read, hak]
      · simp only [List.map_cons, Memory.read, hak, if_false]
        exact ih (by simpa [Ne.symm hak] using hk)
  exact key _ (List.mem_range.mpr h)

theorem bin2gray_lt (n : Nat) (h : n < 1024) : (bin2gray (BitVec.ofNat 32 n)).toNat < 1024 := by
  have hn : (BitVec.ofNat 32 n).toNat = n := by simp only [BitVec.toNat_ofNat]; omega
  have : (1024 : Nat) = 2 ^ 10 := by decide
  simp only [bin2gray, BitVec.toNat_xor, BitVec.toNat_ushiftRight, hn]
  rw [this] at *
  refine Nat.xor_lt_two_pow h (Nat.lt_of_le_of_lt (Nat.shiftRight_le n 1) h)

theorem test_ringState_dataInv (n : Nat) (p : Pos) (hn : n < 1024) (hp : p.inRange) : DataInv (ringState n p) :=
  { test_enabled_dataInv with
    memory := by
      simp only [ringState, Memory.wf, List.pairwise_map]
      exact List.pairwise_lt_range
    offsets := by
      simp only [ringState, List.mem_map, List.mem_range, forall_exists_index, and_imp]
      rintro c k hk rfl
      exact Nat.lt_trans hk hn
    head := by
      simp only [ringState, BitVec.toNat_ofNat]
      exact Nat.lt_of_le_of_lt (Nat.mod_le _ _) hn
    headG := rfl
    headS := rfl
    headView := by
      intro g hg
      rw [List.eq_of_mem_replicate hg]
      exact bin2gray_lt n hn
    headOld := fun _ h => by cases h
    counters := hp
    request := rfl }

theorem test_ringState_counts (n : Nat) (p : Pos) (hn : n < 1024) (hp : p.holdsBlock = true → 512 ≤ n) :
    RingCounts (ringState n p) [n, n] [0, 0] where
  head := by
    have hw : (ringState n p).written = n := List.length_replicate
    rw [hw]
    simp only [ringState, BitVec.toNat_ofNat]
    show n % 2 ^ 32 = n % 1024
    omega
  headStages := by
    have : n % (ringState n p).par.cap = n := Nat.mod_eq_of_lt hn
    simp only [List.map_cons, List.map_nil, this]
    rfl
  headOrder := by
    have hw : (ringState n p).written = n := List.length_replicate
    simp [hw]
  headOld := fun _ h => by cases h
  tail := show (0#32).toNat = 0 % 2 ^ 1 by decide
  tailStages := show List.replicate 2 0#32 = [0, 0].map fun t => bin2gray (BitVec.ofNat 32 (t % 2 ^ 1)) by decide
  tailOrder := by
    have hw : (ringState n p).freed = 0 := rfl
    simp [hw]
  tailOld := fun _ h => by cases h
  released := Nat.zero_le _
  held := by
    intro h
    exact hp h
  room := by
    have hw : (ringState n p).written = n := List.length_replicate
    rw [hw]
    show n ≤ 512 * 0 + 1024
    omega
  open_room := by
    have hw : (ringState n p).written = n := List.length_replicate
    intro _
    rw [hw]
    show n < 512 * 0 + 1024
    omega
  contents := by
    have hw : (ringState n p).written = n := List.length_replicate
    intro j hj _
    rw [hw] at hj
    have : j % (ringState n p).par.cap = j := Nat.mod_eq_of_lt (Nat.lt_trans hj hn)
    rw [this]
    simp only [ringState, State.streamByte, List.reverse_replicate, List.getElem?_replicate, hj, if_true]
    exact read_map_range n j hj

/-! ### Witnesses: states and operands that meet the hypotheses of each statement -/

/-- The first event of the outside world is `e`. -/
def soon (s : State) (e : Event) : State := { s with agenda := [e] }

/-- What the card will answer is no part of the data invariant, nor is what the outside world does next. -/
theorem dataInv_miso {s : State} (h : DataInv s) (l : List Byte) : DataInv { s with miso := l } := { h with }

theorem dataInv_soon {s : State} (h : DataInv s) (e : Event) : DataInv (soon s e) := { h with }

theorem ringInv_soon {s : State} (h : RingInv s) (e : Event) : RingInv (soon s e) := by
  obtain ⟨hs, ts, h⟩ := h
  exact ⟨hs, ts, { h with }⟩

theorem step_producer_write (s : State) (hl : s.par.legal = true) (hr : s.rstP = false) :
    step (soon s .producerWrite) = .next (soon s .producerWrite).eventTaken.producerWrite := by
  simp [step, soon, hl, State.nextEvent, State.eventTaken, State.runEvent, Event.held, hr, State.takeEvent]

/-- One more byte to write. -/
def writing (n : Nat) : State := { ringState n .idle with pq := [0xAB#8] }

theorem writing_dataInv (n : Nat) (h : n < 1024) : DataInv (writing n) :=
  { test_ringState_dataInv n .idle h trivial with
    queue := show 1 ≤ 8 by decide, frozenQueue := fun hf => by cases hf }

theorem writing_counts (n : Nat) (h : n < 1024) : RingCounts (writing n) [n, n] [0, 0] :=
  { test_ringState_counts n .idle h (fun hf => by cases hf) with }

theorem test_witness_decode_encode :
    (Instr.reservedOp 0x8#4).wf = true ∧ (Instr.drespCrcError 0xEB#8).wf = true ∧
    (Instr.sample 0xFFFF#16).wf = true := by decide

theorem test_witness_encode_decode :
    decode .hostop 0xFFFFFFF8#32 = .instr (.reservedOp 0x8#4) ∧ decode .pevent 0x1FFFF#32 = .instr .sync ∧
    decode .dresp 0xFF#32 = .rejected .undefinedDataResponse := by decide

theorem test_witness_gray_code :
    (1 ≤ 1 ∧ (1#32).toNat < 2 ^ 1) ∧ (32 ≤ 32 ∧ (0xFFFFFFFF#32).toNat < 2 ^ 32) ∧ 0 + 1 < 2 := by decide

theorem test_witness_reset_values :
    State.reset.par.legal = true ∧
    (State.reset.assertReset.rstP = true ∧ (Event.sync .fat .current).inProducerDomain = true) ∧
    (State.reset.assertReset.rstC = true ∧ Event.engine.inConsumerDomain = true) := by decide

theorem test_witness_reset_invariants :
    ({ n := 10, s := 2, lsbFirst := false, crcLiteral := true } : Params).legal = true ∧
    ({ n := 32, s := 15, lsbFirst := true, crcLiteral := false } : Params).legal = true := by decide

theorem test_witness_step_host_write :
    (soon State.reset (.hostWrite 0x007#12 0x1#32)).par.legal = true ∧ State.reset.rstC = false ∧
    0x007#12 &&& 0xFFC#12 = 0x004#12 ∧ decode .hostop 0x1#32 = .instr .init := by decide

theorem test_witness_step_host_line :
    let s := { soon State.reset .hostLine with host := { prog := [.wr 0x004#12 0x8#32], line := 0, names := [] } }
    s.par.legal = true ∧ s.rstC = false ∧ s.agenda = [.hostLine] ∧
    s.host.prog[s.host.line]? = some (.wr 0x004#12 0x8#32) ∧
    decode .hostop 0x8#32 = .instr (.reservedOp 0x8#4) := by decide

theorem test_witness_step_producer :
    let s := soon enabled (.producerEvent 0x1FFFF#17)
    s.par.legal = true ∧ s.rstP = false ∧ decode .pevent ((0x1FFFF#17).setWidth 32) = .instr .sync := by decide

theorem test_witness_step_send :
    let s := soon (running (.command .cmd24)) .engine
    s.par.legal = true ∧ s.rstC = false ∧ s.pos.port = .send .cardcmd ∧ s.nextTx = some 0x58#8 ∧
    decode .cardcmd ((0x58#8).setWidth 32) = .instr .cmd24 := by decide

theorem test_witness_step_receive :
    let s := { soon (running (.dresp .block 0)) .engine with miso := [0xE5#8, 0x07#8] }
    s.par.legal = true ∧ s.rstC = false ∧ s.pos.port = .receive .dresp ∧ s.nextTx = some 0xFF#8 ∧
    decode .dresp ((0xE5#8).setWidth 32) = .instr (.drespAccepted 0xE5#8) ∧
    decode .dresp ((0x07#8).setWidth 32) = .rejected .undefinedDataResponse := by decide

theorem test_witness_step_always_defined :
    State.reset.par.legal = true ∧ ({ n := 9, s := 2, lsbFirst := true, crcLiteral := false } : Params).legal = false ∧
    (let s := soon State.reset (.sync .head (.bits 5#32))
     s.nextEvent = .sync .head (.bits 5#32) ∧ step s = .fault (.tornCapture .head)) ∧
    (let s := soon State.reset (.sync .pen (.bits 2#32))
     s.nextEvent = .sync .pen (.bits 2#32) ∧ step s = .fault (.tornCapture .pen)) :=
  ⟨by decide, by decide, ⟨rfl, rfl⟩, ⟨rfl, rfl⟩⟩

theorem test_witness_nop : (0xFFFFFFF0#32).extractLsb' 0 4 = 0#4 := by decide

/-- Idle, busy and halted states for R143's order. -/
theorem test_witness_command_word :
    (State.reset.isBusy = false ∧ State.reset.fatal = 0#2) ∧ (running .stuff).isBusy = true ∧
    (haltedState.isBusy = false ∧ haltedState.fatal ≠ 0#2) ∧ 8#4 ≤ 8#4 ∧
    (Instr.reservedOp 0x8#4).format = .hostop ∧ Instr.endSession ≠ .nop := by decide

theorem test_witness_prechecks :
    (State.reset.session = .notInit ∧ State.reset.isBusy = false ∧ State.reset.fatal = 0#2) ∧
    (let s := { ready .ready with headS := Chain.const 2 (bin2gray 511#32) }
     s.isBusy = false ∧ s.fatal = 0#2 ∧ s.session = .ready ∧ s.pending < 512#32) ∧
    (let s := { ready .sessionOpen with headS := Chain.const 2 (bin2gray 511#32) }
     s.isBusy = false ∧ s.fatal = 0#2 ∧ s.session = .sessionOpen ∧ s.pending < 512#32) := by decide

theorem test_witness_operation_starts :
    (let s := filled .ready
     s.isBusy = false ∧ s.fatal = 0#2 ∧ s.session = .ready ∧ 512#32 ≤ s.pending) ∧
    (let s := filled .sessionOpen
     s.isBusy = false ∧ s.fatal = 0#2 ∧ s.session = .sessionOpen ∧ 512#32 ≤ s.pending) ∧
    Pos.initBegin ≠ .idle := by decide

theorem test_witness_halt_deselects :
    (let s := { haltedState with sdCsN := false }
     s.pos = .idle ∧ s.fatal ≠ 0#2 ∧ s.sdCsN = false) ∧
    (haltedState.pos = .idle ∧ haltedState.sdCsN = true) ∧ State.reset.fatal = 0#2 ∧
    (haltedState.fatal ≠ 0#2 ∧ haltedState.blink = 0) := by decide

theorem test_witness_read_buffer : State.reset.rdbuf.length = 512 ∧ 127 < 128 ∧ 3 < 4 :=
  ⟨List.length_replicate, by decide, by decide⟩

/-- The ends of the reserved ranges and of the read-only ranges. -/
theorem test_witness_reserved_offsets :
    (0x034#12 ≤ 0x03F#12 ∧ 0x078#12 ≤ 0x1FF#12 ∧ 0x400#12 ≤ 0xFFF#12) ∧
    (0x010#12 ≤ 0x033#12 ∧ 0x200#12 ≤ 0x3FF#12) := by decide

theorem test_witness_writes_while_busy :
    (running .stuff).isBusy = true ∧ 0x008#12 ≤ 0x00B#12 ∧ 0x040#12 ≤ 0x077#12 ∧ State.reset.isBusy = false := by
  decide

theorem test_witness_card_port_events :
    (running (.select (.pass (.cmd0 1 0)))).pos = .select (.pass (.cmd0 1 0)) ∧
    (running (.deselect (.finish .eRdCmd))).pos = .deselect (.finish .eRdCmd) ∧
    (running (.trail (.finish .eRdCmd))).pos = .trail (.finish .eRdCmd) ∧
    (running (.trail (.leave .ok))).pos = .trail (.leave .ok) ∧ State.reset.miso = [] := by decide

/-- Each of the nine commands has an exchange that sends it. -/
theorem test_witness_command_byte :
    ([Site.pass (.cmd0 1 0), .pass (.cmd8 1 0), .cmd17, .cmd24, .cmd25, .pass (.cmd55Init 1 0 0),
      .pass (.cmd58Pre 1 0), .pass (.acmd41 1 0), .pass (.acmd23 0)].map Site.cmd =
      [.cmd0, .cmd8, .cmd17, .cmd24, .cmd25, .cmd55, .cmd58, .acmd41, .acmd23]) ∧
    (running (.command .cmd17)).pos = .command .cmd17 ∧ State.reset.pos = .idle := by decide

theorem test_witness_frame :
    let s := { running (.command (.pass (.acmd23 0))) with miso := List.replicate 6 0xFF#8 ++ [0x00#8] }
    s.pos = .command (.pass (.acmd23 0)) ∧ (List.replicate 6 0xFF#8).length = 6 := by decide

/-- R1POLL skips 0xFF only, R1POLL_B7 every byte with bit 7 set; both end at the last byte whatever it is. -/
theorem test_witness_response_poll :
    (let s := { running (.poll .cmd17 1) with miso := [0xFF#8, 0x80#8] }
     s.pos = .poll .cmd17 1 ∧ ([0xFF#8] : List Byte).length ≤ 1 ∧ 0x80#8 ≠ 0xFF#8) ∧
    (let s := { running (.poll (.pass (.acmd41 1 0)) 1) with miso := [0x80#8, 0x90#8] }
     s.pos = .poll (.pass (.acmd41 1 0)) 1 ∧ (0x80#8).getLsbD 7 = true ∧ ([0x80#8] : List Byte).length = 1) := by
  decide

theorem test_witness_response_bytes :
    [Pass.cmd8 1 0, .cmd58Pre 1 0, .cmd58Post 1 0].map
        (fun p => { running (.resp p 0 0#32) with miso := [0xC0#8, 0xFF#8, 0x80#8, 0xAA#8] }.pos) =
      [.resp (.cmd8 1 0) 0 0#32, .resp (.cmd58Pre 1 0) 0 0#32, .resp (.cmd58Post 1 0) 0 0#32] := by decide

/-- An exhausted step, before and at the last attempt. -/
theorem test_witness_pass_sequence :
    let s := running (.trail (.pass (.cmd55Init 3 0 0) false))
    s.pos = .trail (.pass (.cmd55Init 3 0 0) false) ∧ s.cfg.maxInit.toNat ≤ 3 ∧ 2 < s.cfg.maxInit.toNat ∧
    s.fatalC = .none ∧ (running (.trail (.pass (.acmd23 0) true))).pos = .trail (.pass (.acmd23 0) true) := by decide

theorem test_witness_idle_clock :
    DataInv (ringState 0 (.initDeselect 1)) ∧ (List.replicate 20 0xFF#8).length = (ringState 0 .idle).cfg.nIdle.toNat ∧
    (running .initBegin).pos = .initBegin :=
  ⟨test_ringState_dataInv 0 _ (by decide) trivial, by decide, by decide⟩

theorem test_witness_tokens_sent :
    DataInv (ringState 512 .tokenBlock) ∧ DataInv (ringState 512 .tokenSegment) ∧ DataInv (ringState 0 .tokenStop) :=
  ⟨test_ringState_dataInv 512 _ (by decide) trivial, test_ringState_dataInv 512 _ (by decide) trivial,
    test_ringState_dataInv 0 _ (by decide) trivial⟩

/-- The engine about to send a gap or stuff byte, with the card's answer. -/
def atFiller (p : Pos) (v : Session) : State :=
  { State.reset with pos := p, session := v, fast := true, sdCsN := false, miso := [0x5A#8] }

theorem test_witness_fillers :
    ∀ x ∈ [(Pos.gapSession, Session.ready), (.gapBlock, .ready), (.stuff, .sessionOpen)],
      let s := atFiller x.1 x.2
      DataInv s ∧ ControlInv s ∧ s.pos = x.1 ∧ s.miso = 0x5A#8 :: [] := by
  have key : ∀ (p : Pos) (v : Session), p.inRange → State.requestAt (atFiller p v) p = none → p.session = some v →
      p ≠ .idle → p ≠ .initBegin → p.csN = some false → p.pass = none → p.attempt = none →
      (∀ att left, p ≠ .initIdle att left) → DataInv (atFiller p v) ∧ ControlInv (atFiller p v) := by
    intro p v hr hq hs hi hb hc hp ha hl
    refine ⟨{ test_reset_dataInv with counters := hr, request := hq.symm }, ?_⟩
    exact
      { session := fun w h => by rw [show (atFiller p v).pos = p from rfl, hs] at h; cases h; rfl
        idleSession := fun h => absurd h hi
        beginSession := fun h => absurd h hb
        chipSelect := fun w h => by rw [show (atFiller p v).pos = p from rfl, hc] at h; cases h; rfl
        idleSelected := fun h => absurd h hi
        idleOpen := fun h => absurd h hi
        passFast := fun q h => by rw [show (atFiller p v).pos = p from rfl, hp] at h; cases h
        slowIdleClock := fun att left h => absurd h (hl att left)
        readyFast := fun _ => rfl
        attempts := fun k h => by rw [show (atFiller p v).pos = p from rfl, ha] at h; cases h
        doneIdle := fun h => by cases h
        fatalIdle := fun h => absurd rfl h }
  intro x hx
  simp only [List.mem_cons, List.not_mem_nil, or_false] at hx
  rcases hx with rfl | rfl | rfl
  · exact ⟨(key .gapSession .ready trivial rfl rfl nofun nofun rfl rfl rfl nofun).1,
      (key .gapSession .ready trivial rfl rfl nofun nofun rfl rfl rfl nofun).2, rfl, rfl⟩
  · exact ⟨(key .gapBlock .ready trivial rfl rfl nofun nofun rfl rfl rfl nofun).1,
      (key .gapBlock .ready trivial rfl rfl nofun nofun rfl rfl rfl nofun).2, rfl, rfl⟩
  · exact ⟨(key .stuff .sessionOpen trivial rfl rfl nofun nofun rfl rfl rfl nofun).1,
      (key .stuff .sessionOpen trivial rfl rfl nofun nofun rfl rfl rfl nofun).2, rfl, rfl⟩

/-- The polls, at their last byte and before it. -/
theorem test_witness_polls :
    [Pos.tokenPoll 0, .tokenPoll 1, .busyPoll .block 0, .busyPoll .segment 1, .busyPoll .stop 0, .poll .cmd24 0,
      .poll .cmd24 1, .initIdle 1 1, .dresp .block 0, .dresp .segment 0].map (fun p => (running p).pos) =
      [Pos.tokenPoll 0, .tokenPoll 1, .busyPoll .block 0, .busyPoll .segment 1, .busyPoll .stop 0, .poll .cmd24 0,
        .poll .cmd24 1, .initIdle 1 1, .dresp .block 0, .dresp .segment 0] ∧
    0x01#8 ≠ 0xFE#8 ∧ 0x3F#8 ≠ 0x00#8 ∧
    ({ running (.busyPoll .segment 0) with miso := [0x3F#8] } : State).miso = 0x3F#8 :: [] := by decide

/-- The three tested data responses with other upper bits, the idle byte and an undefined one. -/
theorem test_witness_data_responses :
    (State.reset.par.legal = true ∧ 0xE5#8 &&& 0x1F#8 = 0x05#8) ∧ 0x2B#8 &&& 0x1F#8 = 0x0B#8 ∧
    0xED#8 &&& 0x1F#8 = 0x0D#8 ∧
    (∀ b ∈ [0xFF#8, 0x1F#8], b &&& 0x1F#8 ≠ 0x05#8 ∧ b &&& 0x1F#8 ≠ 0x0B#8 ∧ b &&& 0x1F#8 ≠ 0x0D#8) := by decide

theorem test_witness_bytes_need_an_xfer :
    State.reset.isBusy = false ∧ State.reset.nextTx = none ∧ (running .gapBlock).nextTx = some 0xFF#8 := by decide

theorem test_witness_read_block_data :
    let data := List.replicate 512 0x5A#8
    let s := { running (.readData 0) with miso := data ++ 0x12#8 :: 0x34#8 :: 0xFF#8 :: [] }
    s.pos = .readData 0 ∧ s.rdbuf.length = 512 ∧ data.length = 512 :=
  ⟨rfl, List.length_replicate, List.length_replicate⟩

theorem test_witness_block_data_sent (l : List Byte) :
    DataInv { ringState 512 .tokenBlock with miso := l } ∧ DataInv { ringState 512 .tokenSegment with miso := l } ∧
    (ringState 512 .tokenBlock).pq = [] ∧ (ringState 512 .tokenBlock).rstP = false ∧
    (List.replicate 515 0xFF#8).length = 515 :=
  ⟨dataInv_miso (test_ringState_dataInv 512 .tokenBlock (by decide) trivial) l,
    dataInv_miso (test_ringState_dataInv 512 .tokenSegment (by decide) trivial) l, rfl, rfl, List.length_replicate⟩

/-- A written and an unwritten offset, and an engine that has to wait. -/
theorem test_witness_mem_read :
    let s := ringState 1 (.memRead .block 0)
    s.pos = .memRead .block 0 ∧ s.memReq = some 0#32 ∧ s.pq = [] ∧ s.rstP = false ∧
    Memory.read s.mem 0 = some 0#8 ∧ Memory.read (ringState 0 .idle).mem 0 = none ∧
    ({ s with pq := [0xAB#8] } : State).pq ≠ [] := by decide

/-- A disabled, a frozen, a busy and a free producer; the marker armed and not armed. -/
theorem test_witness_producer_events :
    (State.reset.penP = false ∧ { enabled with ovf := true }.ovf = true) ∧
    (let s := { enabled with pq := [0x12#8] }
     s.ovf = false ∧ s.fatP = false ∧ s.penP = true ∧ s.pq ≠ []) ∧
    (enabled.ovf = false ∧ enabled.fatP = false ∧ enabled.penP = true ∧ enabled.pq = []) ∧
    enabled.markArmed = true ∧ { enabled with markArmed := false }.markArmed = false ∧
    (0x1BEEF#17).getLsbD 16 = true := by decide

/-- The last write before overflow and the one that overflows, with the counts behind their pointers. -/
theorem test_witness_producer_write :
    (∀ n ∈ [1022, 1023], DataInv (writing n) ∧ RingCounts (writing n) [n, n] [0, 0]) ∧
    (writing 1023).ovf = false ∧ (writing 1023).fatP = false ∧ (writing 1023).pq = 0xAB#8 :: [] ∧
    BitVec.ofNat 32 ((1023 + 1) % 1024) = (writing 1023).tailP := by
  refine ⟨fun n hn => ?_, rfl, by decide, rfl, by decide⟩
  have h : n < 1024 := by simp at hn; omega
  exact ⟨writing_dataInv n h, writing_counts n h⟩

/-- The last payload byte of the first block. -/
theorem test_witness_stream_in_order :
    DataInv (ringState 512 (.memRead .segment 511)) ∧ RingInv (ringState 512 (.memRead .segment 511)) ∧
    (ringState 512 (.memRead .segment 511)).pq = [] :=
  ⟨test_ringState_dataInv 512 _ (by decide) (show 511 < 512 by decide),
    ⟨_, _, test_ringState_counts 512 _ (by decide) (fun _ => by decide)⟩, rfl⟩

theorem test_witness_pending :
    DataInv (ringState 511 .idle) ∧ RingCounts (ringState 511 .idle) [511, 511] [0, 0] ∧
    DataInv (ringState 512 .idle) ∧ RingCounts (ringState 512 .idle) [512, 512] [0, 0] :=
  ⟨test_ringState_dataInv _ _ (by decide) trivial, test_ringState_counts _ _ (by decide) (fun hf => by cases hf),
    test_ringState_dataInv _ _ (by decide) trivial, test_ringState_counts _ _ (by decide) (fun hf => by cases hf)⟩

/-- An accepted block: the only event that moves the tail. -/
theorem test_witness_tail_moves :
    let s := { soon (running (.dresp .segment 0)) .engine with miso := [0x05#8] }
    (∃ t, step s = .next t ∧ t.tailB ≠ s.tailB) ∧ s.nextEvent ≠ .resetAssert :=
  ⟨⟨_, rfl, by decide⟩, by decide⟩

/-- An event of each domain that goes on. -/
theorem test_witness_domains :
    (∃ t, enabled.runEvent .producerWrite = .next t) ∧ Event.producerWrite.inProducerDomain = true ∧
    (∃ t, enabled.runEvent .blink = .next t) ∧ Event.blink.inConsumerDomain = true :=
  ⟨⟨_, rfl⟩, rfl, ⟨_, rfl⟩, rfl⟩

/-- A step of each crossing; a chain that settles after S + 1 = 3 edges, the first of which captured the old value, a
flag's chain that settles after S = 2, and one that is settled. -/
theorem test_witness_synchronizers :
    (∀ x ∈ [Crossing.head, .tail, .pen, .fat, .ovf, .plost], (State.reset.sync x .current).isSome = true) ∧
    (let c : Chain Word := { stages := [0#32, 0#32], old := some 1#32 }
     c.stages.length + 1 ≤ [Capture.previous, .current, .current].length ∧
     [Capture.previous, .current, .current].foldlM (fun d k => d.sync id 3#32 k) c =
       some { stages := [3#32, 3#32], old := none }) ∧
    (let c : Chain Bool := { stages := [false, false], old := none }
     c.old = none ∧ c.stages.length ≤ [Capture.previous, .bits 1#32].length ∧
     [Capture.previous, .bits 1#32].foldlM (fun d k => d.sync bitWord true k) c =
       some { stages := [true, true], old := none }) ∧
    (let c : Chain Bool := { stages := [true, true], old := none }
     c.old = none ∧ (∀ v ∈ c.stages, v = true) ∧
     [Capture.previous].foldlM (fun d k => d.sync bitWord true k) c = some c) := by decide

/-- Latched flags in a state that keeps its data invariant, and a step from it. -/
theorem test_witness_sticky_flags :
    let s := soon { haltedState with ovf := true, pLost := true } .blink
    DataInv s ∧ (∃ t, step s = .next t) ∧ s.nextEvent ≠ .resetAssert ∧ s.fatal ≠ 0#2 ∧ s.ovf = true ∧
    s.pLost = true ∧ s.fatalC ≠ .none :=
  ⟨{ test_reset_dataInv with
      frozenQueue := fun _ => rfl
      fatSticky := ⟨by decide, fun _ h => by cases h⟩
      ovfSticky := ⟨by decide, fun _ h => by cases h⟩
      plostSticky := ⟨by decide, fun _ h => by cases h⟩ },
    ⟨_, rfl⟩, by decide, by decide, rfl, rfl, by decide⟩

/-- INIT just started: the data and control invariants of a busy state, and its next step. -/
theorem test_witness_running :
    let s := soon (State.reset.start .init) .engine
    DataInv s ∧ ControlInv s ∧ s.isBusy = true ∧ s.pq = [] ∧ s.rstP = false ∧ (∃ t, step s = .next t) ∧
    s.nextEvent ≠ .resetAssert :=
  ⟨{ test_reset_dataInv with counters := trivial, request := rfl },
    { session := fun _ h => by cases h
      idleSession := fun h => by cases h
      beginSession := fun _ => .inl rfl
      chipSelect := fun v h => by cases h; rfl
      idleSelected := fun h => by cases h
      idleOpen := fun h => by cases h
      passFast := fun _ h => by cases h
      slowIdleClock := fun _ _ h => by cases h
      readyFast := fun h => by rcases h with h | h <;> cases h
      attempts := fun _ h => by cases h
      doneIdle := fun h => by cases h
      fatalIdle := fun h => absurd rfl h },
    rfl, rfl, rfl, ⟨_, rfl⟩, by decide⟩

/-- An operation runs before and after a step that is no reset, at two positions (RegisterReads, R158). -/
theorem test_witness_hidden_position :
    let s := soon (State.reset.start .init) .engine
    s.isBusy = true ∧ Pos.stuff ≠ .idle ∧ ∃ t, step s = .next t ∧ s.nextEvent ≠ .resetAssert ∧ t.isBusy = true :=
  ⟨rfl, by decide, _, rfl, by decide, rfl⟩

/-! ### A fair run (70_reset_and_hazards.md R255) -/

/-- The events of a fair run: the engine, the ring's writer and each crossing in turn. -/
def fairEvent (k : Nat) : Event :=
  match k % 8 with
  | 0 => .engine
  | 1 => .producerWrite
  | 2 => .sync .head .current
  | 3 => .sync .tail .current
  | 4 => .sync .pen .current
  | 5 => .sync .fat .current
  | 6 => .sync .ovf .current
  | _ => .sync .plost .current

/-- From a pending read of the first byte of a block. -/
def fairRun : Nat → State
  | 0 => ringState 512 (.memRead .block 0)
  | k + 1 =>
    match (fairRun k).runEvent (fairEvent k) with
    | .next t => t
    | .fault _ => fairRun k
    | .refused _ => fairRun k

/-- The producer is quiet and both domains run. -/
def quiet (s : State) : Prop := s.pq = [] ∧ s.rstP = false ∧ s.rstC = false

theorem fairEvent_cases (k : Nat) :
    fairEvent k = .engine ∨ fairEvent k = .producerWrite ∨ ∃ x, fairEvent k = .sync x .current := by
  unfold fairEvent
  split <;> simp

theorem quiet_step (s : State) (k : Nat) (h : quiet s) : ∃ t, s.runEvent (fairEvent k) = .next t ∧ quiet t := by
  obtain ⟨hq, hp, hc⟩ := h
  rcases fairEvent_cases k with he | he | ⟨x, he⟩ <;> rw [he]
  · obtain ⟨t, ht⟩ : ∃ t, s.engineEvent = .next t := by
      rcases s.engineEvent_cases with ⟨_, h⟩ | ⟨_, _, h⟩ <;> exact ⟨_, h⟩
    obtain ⟨_, _, _, h4, h5, _, _, _, _, _, h11, _⟩ := State.engineEvent_frame ht
    exact ⟨t, by simp [State.runEvent, Event.held, hc, State.takeEvent, ht], h11.trans hq, h4.trans hp, h5.trans hc⟩
  · exact ⟨s, by simp [State.runEvent, Event.held, hp, State.takeEvent, State.producerWrite, hq], hq, hp, hc⟩
  · obtain ⟨t, ht, h⟩ : ∃ t, s.sync x .current = some t ∧ quiet t := by cases x <;> exact ⟨_, rfl, hq, hp, hc⟩
    exact ⟨t, by cases x <;> simp [State.runEvent, Event.held, crossingInP, hp, hc, State.takeEvent, State.syncStep, ht],
      h⟩

theorem fairRun_quiet (k : Nat) : quiet (fairRun k) := by
  induction k with
  | zero => exact ⟨rfl, rfl, rfl⟩
  | succ k ih =>
    obtain ⟨t, ht, hq⟩ := quiet_step _ k ih
    simpa [fairRun, ht] using hq

/-- A fair run whose first state waits for a read (MemReadServed, R255). -/
theorem test_witness_fair_run :
    FairRun fairEvent fairRun ∧ (fairRun 0).pos = .memRead .block 0 ∧ (fairRun 0).memReq = some 0#32 := by
  have hm : ∀ k r, r < 8 → (8 * k + r) % 8 = r := by omega
  refine ⟨⟨?_, ?_, ?_, ?_, ?_, ?_⟩, rfl, by decide⟩
  · intro k
    obtain ⟨t, ht, _⟩ := quiet_step _ k (fairRun_quiet k)
    simp [fairRun, ht]
  · intro k
    exact ⟨8 * k + 0, by omega, by simp [fairEvent], (fairRun_quiet _).2.2⟩
  · intro k
    exact ⟨8 * k + 1, by omega, by simp [fairEvent, hm k 1 (by decide)], (fairRun_quiet _).2.1⟩
  · intro k x
    have held : ∀ j c, fairEvent j = .sync x c → Event.held (fairEvent j) (fairRun j) = false := by
      intro j c h
      obtain ⟨_, h2, h3⟩ := fairRun_quiet j
      rw [h]
      cases x <;> simp [Event.held, crossingInP, h2, h3]
    have pick : ∃ r, r < 8 ∧ fairEvent (8 * k + r) = .sync x .current := by
      cases x
      · exact ⟨2, by decide, by simp [fairEvent, hm k 2 (by decide)]⟩
      · exact ⟨3, by decide, by simp [fairEvent, hm k 3 (by decide)]⟩
      · exact ⟨4, by decide, by simp [fairEvent, hm k 4 (by decide)]⟩
      · exact ⟨5, by decide, by simp [fairEvent, hm k 5 (by decide)]⟩
      · exact ⟨6, by decide, by simp [fairEvent, hm k 6 (by decide)]⟩
      · exact ⟨7, by decide, by simp [fairEvent, hm k 7 (by decide)]⟩
    obtain ⟨r, _, hr⟩ := pick
    exact ⟨8 * k + r, .current, by omega, hr, held _ _ hr⟩
  · intro k _ _ _
    rcases fairEvent_cases k with he | he | ⟨x, he⟩ <;> rw [he] <;> exact ⟨nofun, nofun⟩
  · intro k
    exact ⟨k, Nat.le_refl k, (fairRun_quiet k).1, (fairRun_quiet k).2.1⟩

/-- A state of the ring invariant whose next step is a ring write. -/
theorem test_witness_ring_step :
    DataInv (soon (writing 1023) .producerWrite) ∧ RingInv (soon (writing 1023) .producerWrite) ∧
    ∃ t, step (soon (writing 1023) .producerWrite) = .next t :=
  ⟨dataInv_soon (writing_dataInv 1023 (by decide)) _, ringInv_soon ⟨_, _, writing_counts 1023 (by decide)⟩ _,
    ⟨_, step_producer_write _ rfl rfl⟩⟩

end Sys2Proof.Tests
end

namespace Sys2Proof.Machine

/-! ### What one byte on the card port can do

Everything an engine XFER does with the byte it received, as one case list: the engine loads card registers and moves
on, asks for a ring byte, releases a block, or ends the operation. -/

/-- The registers that a received byte loads on the way (42_card_transport.md, 43_card_init.md, 44_card_block_ops.md):
everything it writes but the position, the read request, the tail, and what the end of an operation writes. -/
structure CardRegs where
  session : Session
  fast : Bool
  attempts : BitVec 3
  lastR1 : Byte
  lastTok : Byte
  ocr : Word
  r7 : Word
  ccs : Bool
  sesBlocks : Word
  rdcrc : BitVec 16
  rdbuf : List Byte

/-- The card registers of a state. -/
def State.cardRegs (s : State) : CardRegs :=
  { session := s.session, fast := s.fast, attempts := s.attempts, lastR1 := s.lastR1, lastTok := s.lastTok,
    ocr := s.ocr, r7 := s.r7, ccs := s.ccs, sesBlocks := s.sesBlocks, rdcrc := s.rdcrc, rdbuf := s.rdbuf }

/-- The state with these card registers. -/
def State.load (s : State) (c : CardRegs) : State :=
  { s with
    session := c.session, fast := c.fast, attempts := c.attempts, lastR1 := c.lastR1, lastTok := c.lastTok,
    ocr := c.ocr, r7 := c.r7, ccs := c.ccs, sesBlocks := c.sesBlocks, rdcrc := c.rdcrc, rdbuf := c.rdbuf }

/-- The position waits for no ring byte. -/
def Pos.noRequest (p : Pos) : Prop := ∀ w i, p ≠ .memRead w i

/-- What a received byte can do to the state. -/
inductive ByteAction (s : State) : State → Prop
  | nothing : ByteAction s s
  | goes (c : CardRegs) (p : Pos) :
    c.rdbuf.length = s.rdbuf.length → p.inRange → p.noRequest → ByteAction s ((s.load c).goto p)
  | requests (w : WriteKind) (i : Nat) : i < 512 → ByteAction s (s.requestRead w i)
  | accepts (c : CardRegs) (k : BusyKind) (left : Nat) :
    c.rdbuf.length = s.rdbuf.length → ByteAction s ((s.advanceTail.load c).goto (.busyPoll k left))
  | finishes (c : CardRegs) (code : Code) :
    c.rdbuf.length = s.rdbuf.length → ByteAction s ((s.load c).finish code)

section
variable (s : State) {c : CardRegs} (hc : c.rdbuf.length = s.rdbuf.length)
include hc

theorem ByteAction.attemptFailed (att : Nat) (e : Code) : ByteAction s ((s.load c).attemptFailed att e) := by
  rcases (s.load c).attemptFailed_cases att e with ⟨_, h⟩ | ⟨_, h⟩ <;> rw [h]
  · exact .goes { c with attempts := BitVec.ofNat 3 (att + 1) } (.initDeselect (att + 1)) hc trivial nofun
  · exact .finishes { c with session := .notInit } e hc

theorem ByteAction.passDone (p : Pass) (ok : Bool) : ByteAction s ((s.load c).passDone p ok) := by
  rcases (s.load c).passDone_cases p ok with ⟨q, h⟩ | ⟨q, h⟩ | ⟨att, e, h⟩ | ⟨e, _, h⟩ | h <;> rw [h]
  · exact .goes c (.select (.pass q)) hc trivial nofun
  · exact .goes { c with fast := true } (.select (.pass q)) hc trivial nofun
  · exact .attemptFailed s hc att e
  · exact .finishes c e hc
  · exact .finishes { c with session := .ready } .ok hc

theorem ByteAction.afterTrail (a : After) : ByteAction s ((s.load c).afterTrail a) := by
  cases a with
  | pass p ok => exact .passDone s hc p ok
  | finish e => exact .finishes c e hc
  | leave e => exact .finishes { c with session := .ready } e hc

theorem ByteAction.r1Done (x : Site) (r : Byte) : ByteAction s ((s.load c).r1Done x r) := by
  unfold State.r1Done
  repeat' split
  all_goals exact .goes c _ hc (by simp [Pos.inRange]) nofun

theorem ByteAction.respDone (p : Pass) (v : Word) : ByteAction s ((s.load c).respDone p v) := by
  cases p with
  | cmd8 att left => exact .goes { c with r7 := v } _ hc trivial nofun
  | cmd58Post att left => exact .goes { c with ocr := v, ccs := v.getLsbD 30 } _ hc trivial nofun
  | _ => exact .goes c _ hc trivial nofun

theorem ByteAction.blockAccepted (w : WriteKind) : ByteAction s ((s.load c).blockAccepted w) := by
  cases w with
  | block => exact .accepts c .block _ hc
  | segment => exact .accepts { c with sesBlocks := c.sesBlocks + 1#32 } .segment _ hc

theorem ByteAction.classify (t : Byte) : ByteAction s ((s.load c).classify t) := by
  unfold State.classify
  repeat' split
  · exact .blockAccepted s hc .block
  all_goals exact .goes c _ hc trivial nofun

theorem ByteAction.drespByte (w : WriteKind) (left : Nat) (r : Byte) :
    ByteAction s ((s.load c).drespByte w left r) := by
  unfold State.drespByte
  repeat' split
  · exact .classify s hc r
  · exact .goes c _ hc trivial nofun
  · exact .goes c _ hc trivial nofun
  · exact .blockAccepted s hc .segment
  · exact .goes c _ hc trivial nofun
  · exact .goes c _ hc trivial nofun

end

/-- Moving on with every card register as it is. -/
theorem ByteAction.moves (s : State) (p : Pos) (hp : p.inRange) (hn : p.noRequest) : ByteAction s (s.goto p) :=
  .goes s.cardRegs p rfl hp hn

theorem ByteAction.busyCleared (s : State) (k : BusyKind) : ByteAction s (s.busyCleared k) := by
  cases k with
  | block => exact .moves s _ trivial nofun
  | segment => exact .finishes s.cardRegs .ok rfl
  | stop => exact .moves s _ trivial nofun

theorem ByteAction.busyTimeout (s : State) (k : BusyKind) : ByteAction s (s.busyTimeout k) := by
  cases k <;> exact .moves s _ trivial nofun

/-- Everything a received byte can do, position by position in the order of `State.received`. -/
theorem State.received_action (s : State) (r : Byte) : ByteAction s (s.received r) := by
  unfold State.received
  split
  case h_1 | h_2 => exact .moves s _ trivial nofun -- idle clock
  case h_3 x _ => exact .moves s _ ⟨by decide, by decide⟩ nofun -- command byte
  case h_4 x i _ => -- frame byte
    split
    · exact .moves s _ ⟨by omega, by omega⟩ nofun
    · exact .moves s _ trivial nofun
  case h_5 x left _ => -- response poll
    repeat' split
    · exact .r1Done s (c := { s.cardRegs with lastR1 := r }) rfl x r
    · exact .r1Done s (c := { s.cardRegs with lastR1 := r }) rfl x r
    · exact .moves s _ trivial nofun
  case h_6 p got acc _ => -- response bytes
    split
    · exact .moves s _ (show got + 1 ≤ 3 by omega) nofun
    · exact .respDone s (c := s.cardRegs) rfl p _
  case h_7 a _ => exact .afterTrail s (c := s.cardRegs) rfl a -- trailing byte
  case h_8 left _ => -- token poll
    repeat' split
    · exact .goes { s.cardRegs with lastTok := r } _ rfl (show 0 < 512 by decide) nofun
    · exact .goes { s.cardRegs with lastTok := r } _ rfl trivial nofun
    · exact .goes { s.cardRegs with lastTok := r } _ rfl trivial nofun
  case h_9 i _ => -- payload byte of a read
    have hb : (s.rdbuf.set i r).length = s.rdbuf.length := List.length_set
    split
    · exact .goes { s.cardRegs with rdbuf := s.rdbuf.set i r } _ hb (show i + 1 < 512 by omega) nofun
    · exact .goes { s.cardRegs with rdbuf := s.rdbuf.set i r } _ hb trivial nofun
  case h_10 => exact .moves s _ trivial nofun -- first CRC byte
  case h_11 hi _ => exact .goes { s.cardRegs with rdcrc := hi ++ r } _ rfl trivial nofun -- second CRC byte
  case h_12 => -- gap byte of a session
    exact .finishes { s.cardRegs with sesBlocks := 0#32, session := .sessionOpen } .ok rfl
  case h_13 => exact .moves s _ trivial nofun -- gap byte of a block
  case h_14 => exact .requests .block 0 (by decide) -- tokens
  case h_15 => exact .requests .segment 0 (by decide)
  case h_16 w i b _ => -- payload byte of a write
    split
    · exact .requests w (i + 1) (by omega)
    · exact .moves s _ trivial nofun
  case h_17 | h_18 => exact .moves s _ trivial nofun -- filler bytes
  case h_19 w left _ => exact .drespByte s (c := { s.cardRegs with lastTok := r }) rfl w left r -- data response
  case h_20 k left _ => -- busy poll
    repeat' split
    · exact .busyCleared s k
    · exact .busyTimeout s k
    · exact .moves s _ trivial nofun
  case h_21 => split <;> exact .moves s _ trivial nofun -- stop token
  case h_22 => exact .moves s _ trivial nofun -- stuff byte
  all_goals exact .nothing -- positions without an XFER

end Sys2Proof.Machine

namespace Sys2Proof.Machine

/-! ### Values in their widths -/

/-- A gray code has the width of its number (30_encoding.md R112). -/
theorem bin2gray_toNat_lt {w : Nat} {b : Word} (h : b.toNat < 2 ^ w) : (bin2gray b).toNat < 2 ^ w := by
  rw [bin2gray, BitVec.toNat_xor, BitVec.toNat_ushiftRight]
  exact Nat.xor_lt_two_pow h (Nat.lt_of_le_of_lt (Nat.shiftRight_le _ _) h)

/-- `a +_w b` has `w` bits. -/
theorem addMod_toNat_lt {w : Nat} (h : w ≤ 32) (a b : Word) : (addMod w a b).toNat < 2 ^ w := by
  rw [addMod_toNat h]
  exact Nat.mod_lt _ (Nat.two_pow_pos w)

theorem le_atLeast {w : Nat} (lo v : BitVec w) : lo ≤ atLeast lo v := by
  unfold atLeast
  split
  · exact BitVec.le_refl lo
  · exact BitVec.not_lt.mp ‹_›

/-- A write keeps every ceiling at its minimum or above (10_state.md R54 to R63). -/
theorem Cfg.write_atLeastMinimum {c d : Cfg} {a : BitVec 12} {v : Word} (h : c.AtLeastMinimum)
    (hw : c.write a v = some d) : d.AtLeastMinimum := by
  unfold Cfg.write at hw
  split at hw <;> cases hw
  · exact { h with nIdle := le_atLeast _ _ }
  · exact { h with nNcr := le_atLeast _ _ }
  · exact { h with nCmd0 := le_atLeast _ _ }
  · exact { h with nCmd8 := le_atLeast _ _ }
  · exact { h with nCmd58 := le_atLeast _ _ }
  · exact { h with nCmd55 := le_atLeast _ _ }
  · exact { h with nAcmdR1 := le_atLeast _ _ }
  · exact { h with nAcmd41 := le_atLeast _ _ }
  · exact { h with nRdtok := le_atLeast _ _ }
  · exact { h with nDresp := le_atLeast _ _ }
  · exact { h with nBusy := le_atLeast _ _ }
  · exact { h with nPre := le_atLeast _ _ }
  · exact { h with maxInit := le_atLeast _ _ }
  · exact { h with }

theorem Cfg.reset_atLeastMinimum : Cfg.reset.AtLeastMinimum := by constructor <;> decide

/-! ### Chains -/

theorem Chain.sync_length {α : Type} {c d : Chain α} {bitsOf : α → Word} {cur : α} {k : Capture}
    (h : c.sync bitsOf cur k = some d) : d.stages.length = c.stages.length := by
  obtain ⟨v, rfl, _⟩ := Chain.sync_cases h
  exact c.shift_length v

/-- What holds of a source, of the value before its latest change and of every stage, holds of every stage after a
step. -/
theorem Chain.sync_forall {α : Type} {c d : Chain α} {bitsOf : α → Word} {cur : α} {k : Capture} {p : α → Prop}
    (h : c.sync bitsOf cur k = some d) (hs : ∀ v ∈ c.stages, p v) (ho : ∀ v, c.old = some v → p v) (hc : p cur) :
    ∀ v ∈ d.stages, p v := by
  obtain ⟨u, rfl, hu⟩ := Chain.sync_cases h
  intro v hv
  rcases List.mem_cons.mp (List.dropLast_subset _ hv) with rfl | hv
  · exact hu.elim (· ▸ hc) (ho v)
  · exact hs v hv

theorem Chain.sync_old {α : Type} {c d : Chain α} {bitsOf : α → Word} {cur : α} {k : Capture}
    (h : c.sync bitsOf cur k = some d) : d.old = none := by
  obtain ⟨v, rfl, _⟩ := Chain.sync_cases h
  rfl

theorem Chain.mem_const {α : Type} {n : Nat} {v w : α} (h : w ∈ (Chain.const n v).stages) : w = v :=
  List.eq_of_mem_replicate h

/-- After reset no stage of a flag's chain is 1. -/
theorem Chain.Sticky.const (n : Nat) (source : Bool) : (Chain.const n false).Sticky source where
  order := by
    refine List.pairwise_cons.mpr ⟨fun b hb h => ?_, List.pairwise_replicate.mpr (.inr id)⟩
    rw [Chain.mem_const hb] at h
    cases h
  old := nofun

/-- A flag that rises leaves no stage ahead of it. -/
theorem Chain.Sticky.rise {c : Chain Bool} (h : c.Sticky false) : (c.changed false).Sticky true where
  order := List.pairwise_cons.mpr ⟨fun _ _ _ => rfl, (List.pairwise_cons.mp h.order).2⟩
  old := by
    rintro v ⟨⟩
    exact ⟨rfl, fun b hb => Bool.eq_false_iff.mpr fun ht => nomatch (List.pairwise_cons.mp h.order).1 b hb ht⟩

/-- A synchronizer step takes a stage's value from in front of it. -/
theorem Chain.Sticky.sync {c d : Chain Bool} {source : Bool} {bitsOf : Bool → Word} {k : Capture}
    (h : c.Sticky source) (hs : c.sync bitsOf source k = some d) : d.Sticky source := by
  obtain ⟨v, rfl, hv⟩ := Chain.sync_cases hs
  obtain ⟨first, rest⟩ := List.pairwise_cons.mp h.order
  refine ⟨?_, nofun⟩
  have full : (source :: v :: c.stages).Pairwise fun a b => b = true → a = true := by
    rcases hv with rfl | hv
    · exact List.pairwise_cons.mpr ⟨List.forall_mem_cons.mpr ⟨id, first⟩, h.order⟩
    · obtain ⟨rfl, zero⟩ := h.old v hv
      refine List.pairwise_cons.mpr ⟨List.forall_mem_cons.mpr ⟨nofun, first⟩, List.pairwise_cons.mpr ⟨?_, rest⟩⟩
      intro b hb ht
      rw [zero b hb] at ht
      cases ht
  exact full.sublist ((List.dropLast_sublist (v :: c.stages)).cons_cons source)

end Sys2Proof.Machine

namespace Sys2Proof.Machine

/-! ### The data invariant, operation by operation -/

theorem State.requestAt_noRequest (s : State) {p : Pos} (h : p.noRequest) : s.requestAt p = none := by
  cases p with
  | memRead w i => exact absurd rfl (h w i)
  | _ => rfl

/-- Away from a ring read no request is pending. -/
theorem DataInv.memReq_none {s : State} (h : DataInv s) (hn : s.pos.noRequest) : s.memReq = none :=
  h.request.trans (s.requestAt_noRequest hn)

/-- The build is within its limits. -/
theorem DataInv.widths {s : State} (h : DataInv s) : s.par.n ≤ 32 ∧ s.par.tb ≤ 32 := by
  obtain ⟨_, hn, _⟩ := (Params.legal_iff _).mp h.legal
  exact ⟨hn, by unfold Params.tb; omega⟩

theorem DataInv.headG_lt {s : State} (h : DataInv s) : s.headG.toNat < s.par.cap := by
  rw [h.headG]
  exact bin2gray_toNat_lt h.head

theorem DataInv.tailG_lt {s : State} (h : DataInv s) : s.tailG.toNat < 2 ^ s.par.tb := by
  rw [h.tailG]
  exact bin2gray_toNat_lt h.tailB

section
variable {s : State} (h : DataInv s)
include h

theorem DataInv.eventTaken : DataInv s.eventTaken := by
  unfold State.eventTaken
  split <;> exact { h with }

theorem DataInv.answerTaken : DataInv s.answerTaken := by
  unfold State.answerTaken
  split <;> exact { h with }

theorem DataInv.load {c : CardRegs} (hc : c.rdbuf.length = s.rdbuf.length) : DataInv (s.load c) :=
  { h with buffer := hc.trans h.buffer }

theorem DataInv.xfer (tx rx : Byte) : DataInv (s.xfer tx rx) := { h with mosi := rfl, sclk := rfl }

theorem DataInv.setCs (v : Bool) : DataInv (s.setCs v) := { h with }

theorem DataInv.goto {p : Pos} (hm : s.memReq = none) (hp : p.inRange) (hn : p.noRequest) : DataInv (s.goto p) :=
  { h with counters := hp, request := hm.trans (State.requestAt_noRequest _ hn).symm }

theorem DataInv.requestRead (w : WriteKind) {i : Nat} (hi : i < 512) : DataInv (s.requestRead w i) :=
  { h with counters := hi, request := rfl }

/-- The tail moves while no read is pending, so no request names the old one. -/
theorem DataInv.advanceTail (hn : s.pos.noRequest) : DataInv s.advanceTail :=
  { h with
    tailB := addMod_toNat_lt h.widths.2 _ _
    tailG := rfl
    tailOld := by rintro g ⟨⟩; exact h.tailG_lt
    request := (h.memReq_none hn).trans (State.requestAt_noRequest _ hn).symm }

theorem DataInv.fatalUpdate (c : Code) : DataInv (s.fatalUpdate c) := by
  rcases s.fatalUpdate_cases c with hu | ⟨hs, hc, hu⟩ <;> rw [hu]
  · exact h
  · have old : s.fatS.Sticky false := hs ▸ h.fatSticky
    exact { h with fatSticky := by simpa [State.setFatalC, hs, hc] using old.rise }

theorem DataInv.finish (c : Code) (hm : s.memReq = none) : DataInv (s.finish c) :=
  { h.fatalUpdate c with counters := trivial, request := show (s.fatalUpdate c).memReq = none by simpa using hm }

/-- What a received byte does keeps the invariant. -/
theorem DataInv.byteAction {t : State} (hn : s.pos.noRequest) (ha : ByteAction s t) : DataInv t := by
  have hm := h.memReq_none hn
  cases ha with
  | nothing => exact h
  | goes c p hc hp hq => exact (h.load hc).goto hm hp hq
  | requests w i hi => exact h.requestRead w hi
  | accepts c k left hc => exact ((h.advanceTail hn).load hc).goto hm trivial nofun
  | finishes c e hc => exact (h.load hc).finish e hm

theorem DataInv.serveRead {w : WriteKind} {i : Nat} (hp : s.pos = .memRead w i) : DataInv (s.serveRead w i) := by
  rcases s.serveRead_cases w i with hs | ⟨off, _, _, _, hs⟩ <;> rw [hs]
  · exact h
  · have hi : s.pos.inRange := h.counters
    rw [hp] at hi
    exact { h with mport := rfl, counters := hi, request := rfl }

theorem DataInv.internal : DataInv s.internal := by
  rcases s.internal_cases with
    ⟨hi, _⟩ | ⟨_, _, _, hi⟩ | ⟨hp, hi⟩ | ⟨att, hp, hi⟩ | ⟨x, hp, hi⟩ | ⟨a, hp, hi⟩ | ⟨w, i, hp, hi⟩ <;> rw [hi]
  · exact h
  · exact h.setCs true
  · exact { h with counters := trivial, request := h.memReq_none (by rw [hp]; nofun) }
  · exact { h with counters := trivial, request := h.memReq_none (by rw [hp]; nofun) }
  · exact { h with counters := trivial, request := h.memReq_none (by rw [hp]; nofun) }
  · exact { h with counters := trivial, request := h.memReq_none (by rw [hp]; nofun) }
  · exact h.serveRead hp

/-! ### The producer -/

theorem DataInv.arm (b : Bool) : DataInv (s.arm b) := by
  unfold State.arm
  split <;> exact { h with }

theorem DataInv.setPLost : DataInv s.setPLost := by
  unfold State.setPLost
  split
  · exact h
  · have old : s.plostS.Sticky false := Bool.eq_false_iff.mpr ‹_› ▸ h.plostSticky
    exact { h with plostSticky := old.rise }

/-- OVF rises and the queue is emptied (40_ring_buffer.md R125). -/
theorem DataInv.overflow : DataInv { s.setOvf with pq := [] } := by
  unfold State.setOvf
  split
  · exact { h with queue := Nat.zero_le 8, frozenQueue := fun _ => rfl }
  · have old : s.ovfS.Sticky false := Bool.eq_false_iff.mpr ‹_› ▸ h.ovfSticky
    exact { h with ovfSticky := old.rise, queue := Nat.zero_le 8, frozenQueue := fun _ => rfl }

/-- A queue the producer can hold, while it is not frozen. -/
theorem DataInv.withQueue {q : List Byte} (ho : s.ovf = false) (hq : q.length ≤ 8) :
    DataInv { s with pq := q } :=
  { h with queue := hq, frozenQueue := fun hf => absurd (ho.symm.trans hf) nofun }

theorem DataInv.gateEvent {accept : State} (ha : s.ovf = false → DataInv accept) : DataInv (s.gateEvent accept) := by
  rcases s.gateEvent_cases accept with ⟨_, hg⟩ | ⟨ho, _, _, _, hg⟩ | ⟨_, _, _, _, hg⟩ <;> rw [hg]
  · exact h
  · exact ha ho
  · exact h.setPLost

theorem DataInv.sampleEvent (v : BitVec 16) (ho : s.ovf = false) : DataInv (s.sampleEvent v) :=
  h.withQueue ho (by unfold sampleBytes; split <;> exact (by decide : 2 ≤ 8))

theorem DataInv.syncEvent (ho : s.ovf = false) : DataInv s.syncEvent := by
  unfold State.syncEvent
  split
  · exact { h.withQueue (q := markerBytes) ho (by decide) with }
  · exact h

/-- One ring write: the byte at HEAD and HEAD with its gray copy. -/
theorem DataInv.writeByte (b : Byte) : DataInv (s.memWrite s.head b).advanceHead :=
  { h with
    memory := Memory.write_wf h.memory _ b
    offsets := Memory.write_offsets b h.offsets h.head
    head := addMod_toNat_lt h.widths.1 _ _
    headG := rfl
    headOld := by rintro g ⟨⟩; exact h.headG_lt
    mport := rfl }

theorem DataInv.producerWrite : DataInv s.producerWrite := by
  have written : ∀ b rest, s.pq = b :: rest → s.ovf = false →
      DataInv (({ s with pq := rest } : State).memWrite s.head b).advanceHead := by
    intro b rest hq ho
    have hl := h.queue
    rw [hq, List.length_cons] at hl
    exact (h.withQueue ho (by omega)).writeByte b
  rcases s.producerWrite_cases with ⟨_, hw⟩ | ⟨_, _, hw⟩ | ⟨b, rest, hq, ho, _, _, hw⟩ | ⟨b, rest, hq, ho, _, _, hw⟩ <;>
    rw [hw]
  · exact h
  · exact { h with queue := Nat.zero_le 8, frozenQueue := fun _ => rfl }
  · exact (written b rest hq ho).overflow
  · exact written b rest hq ho

/-! ### The host, the indicators, the synchronizers, reset -/

theorem DataInv.start (op : HostOp) (hb : s.isBusy = false) : DataInv (s.start op) := by
  have hm : s.memReq = none := h.memReq_none (by rw [s.isBusy_false_iff.mp hb]; nofun)
  cases op <;> exact { h with counters := trivial, request := hm }

theorem DataInv.writeCtrl (v : Word) : DataInv (s.writeCtrl v) := by
  unfold State.writeCtrl State.setProdEn
  split <;> exact { h with }

theorem DataInv.hostAction {t : State} (ha : HostAction s t) : DataInv t := by
  cases ha with
  | nothing => exact h
  | lost _ => exact { h with }
  | completed c _ => exact { h with }
  | started op hb _ _ => exact h.start op hb
  | ctrl v => exact h.writeCtrl v
  | status v => exact { h with }
  | arg v _ => exact { h with }
  | cfg a v c _ hw => exact { h with ceilings := Cfg.write_atLeastMinimum h.ceilings hw }

theorem DataInv.blinkEdge : DataInv s.blinkEdge := by
  unfold State.blinkEdge
  split
  · refine { h with blink := ?_ }
    have := s.fatal.isLt
    show (if s.blink + 1 < 2 * (s.fatal.toNat + 1) then s.blink + 1 else 0) < 8
    split <;> omega
  · exact { h with blink := Nat.zero_lt_succ 7 }

theorem DataInv.sync {t : State} {x : Crossing} {k : Capture} (hs : s.sync x k = some t) : DataInv t := by
  rcases State.sync_cases hs with
    ⟨c, _, hc, rfl⟩ | ⟨c, _, hc, rfl⟩ | ⟨c, _, hc, rfl⟩ | ⟨c, _, hc, rfl⟩ | ⟨c, _, hc, rfl⟩ | ⟨c, _, hc, rfl⟩ <;>
    have hl := Chain.sync_length hc
  · exact { h with
      headS := hl.trans h.headS
      headView := Chain.sync_forall hc h.headView h.headOld h.headG_lt
      headOld := fun g hg => absurd ((Chain.sync_old hc).symm.trans hg) nofun }
  · exact { h with
      tailS := hl.trans h.tailS
      tailView := Chain.sync_forall hc h.tailView h.tailOld h.tailG_lt
      tailOld := fun g hg => absurd ((Chain.sync_old hc).symm.trans hg) nofun }
  · exact { h with penS := hl.trans h.penS }
  · exact { h with fatS := hl.trans h.fatS, fatSticky := h.fatSticky.sync hc }
  · exact { h with ovfS := hl.trans h.ovfS, ovfSticky := h.ovfSticky.sync hc }
  · exact { h with plostS := hl.trans h.plostS, plostSticky := h.plostSticky.sync hc }

end

/-- Every legal build meets the invariant right after reset (70_reset_and_hazards.md R240). -/
theorem State.resetWith_dataInv {p : Params} (hp : p.legal = true) : DataInv (State.resetWith p) where
  legal := hp
  memory := Memory.wf_nil
  offsets := nofun
  head := Nat.two_pow_pos _
  headG := bin2gray_zero.symm
  tailB := Nat.two_pow_pos _
  tailG := bin2gray_zero.symm
  headS := List.length_replicate
  tailS := List.length_replicate
  penS := List.length_replicate
  fatS := List.length_replicate
  ovfS := List.length_replicate
  plostS := List.length_replicate
  headView := fun _ hg => Chain.mem_const hg ▸ Nat.two_pow_pos _
  headOld := nofun
  tailView := fun _ hg => Chain.mem_const hg ▸ Nat.two_pow_pos _
  tailOld := nofun
  fatSticky := .const _ _
  ovfSticky := .const _ _
  plostSticky := .const _ _
  queue := Nat.zero_le 8
  frozenQueue := fun _ => rfl
  ceilings := Cfg.reset_atLeastMinimum
  buffer := State.resetWith_rdbuf_length p
  mosi := rfl
  sclk := rfl
  mport := rfl
  counters := trivial
  request := rfl
  blink := Nat.zero_lt_succ 7

theorem DataInv.assertReset {s : State} (h : DataInv s) : DataInv s.assertReset :=
  { State.resetWith_dataInv h.legal with memory := h.memory, offsets := h.offsets, buffer := h.buffer }

/-- A position with an XFER waits for no ring byte. -/
theorem State.noRequest_of_nextTx {s : State} {tx : Byte} (h : s.nextTx = some tx) : s.pos.noRequest := by
  intro w i hp
  simp [State.nextTx, hp] at h

/-- Every event that its domain takes keeps the invariant. -/
theorem DataInv.action {s t : State} {e : Event} (h : DataInv s) (ha : Action s e t) : DataInv t := by
  cases ha with
  | read e host w _ => exact { h with }
  | host e host t _ ha =>
    have hh : DataInv { s with host := host } := { h with }
    exact hh.hostAction ha
  | sync w => exact h.gateEvent h.syncEvent
  | sample w v => exact (h.arm false).gateEvent ((h.arm false).sampleEvent v)
  | cycle b => exact h.arm b
  | write => exact h.producerWrite
  | xfer tx htx =>
    have hn : (s.answerTaken.xfer tx s.cardAnswer).pos.noRequest := by
      simpa using State.noRequest_of_nextTx htx
    exact (h.answerTaken.xfer tx s.cardAnswer).byteAction hn (State.received_action _ _)
  | internal _ => exact h.internal
  | capture x k t hs => exact h.sync hs
  | blink => exact h.blinkEdge
  | reset => exact h.assertReset
  | releaseP => exact { h with }
  | releaseC => exact { h with }

/-- Settles O56: a step drops its event or takes it, and no event that is taken breaks the invariant. -/
theorem dataInvKept : Obligations.DataInvKept := by
  intro s t h hs
  obtain ⟨_, ⟨_, rfl⟩ | ⟨_, ha⟩⟩ := step_cases hs
  · exact h.eventTaken
  · exact h.eventTaken.action ha

end Sys2Proof.Machine

namespace Sys2Proof.Machine

/-! ### The two clock domains -/

/-- What the clk_c domain sees of a state: every register of clk_p, the ring and the model's memory of what a crossing
held before are blanked. -/
def State.consumerView (s : State) : State :=
  { s with
    head := 0#32, headG := 0#32, tailS := Chain.const 0 0#32, ovf := false, penS := Chain.const 0 false,
    fatS := Chain.const 0 false, pLost := false, pq := [], markArmed := false, mport := MemPort.idle, mem := [],
    ringLog := [], headS := { s.headS with old := none }, ovfS := { s.ovfS with old := none },
    plostS := { s.plostS with old := none } }

theorem State.consumerView_setPLost (s : State) : s.setPLost.consumerView = s.consumerView := by
  unfold State.setPLost
  split <;> rfl

theorem State.consumerView_setOvf (s : State) : s.setOvf.consumerView = s.consumerView := by
  unfold State.setOvf
  split <;> rfl

theorem State.consumerView_gateEvent {s accept : State} (h : accept.consumerView = s.consumerView) :
    (s.gateEvent accept).consumerView = s.consumerView := by
  rcases s.gateEvent_cases accept with ⟨_, hg⟩ | ⟨_, _, _, _, hg⟩ | ⟨_, _, _, _, hg⟩ <;> rw [hg]
  · exact h
  · exact s.consumerView_setPLost

theorem State.consumerView_arm (s : State) (b : Bool) : (s.arm b).consumerView = s.consumerView := by
  unfold State.arm
  split <;> rfl

theorem State.consumerView_syncEvent (s : State) : s.syncEvent.consumerView = s.consumerView := by
  unfold State.syncEvent
  split <;> rfl

theorem State.consumerView_producerWrite (s : State) : s.producerWrite.consumerView = s.consumerView := by
  rcases s.producerWrite_cases with ⟨_, hw⟩ | ⟨_, _, hw⟩ | ⟨b, rest, _, _, _, _, hw⟩ | ⟨b, rest, _, _, _, _, hw⟩ <;>
    rw [hw]
  · rfl
  · exact State.consumerView_setOvf (State.advanceHead _)
  · rfl

/-- No event is of both domains. -/
theorem Event.inConsumerDomain_of_producer {e : Event} (h : e.inProducerDomain = true) :
    e.inConsumerDomain = false := by
  cases e <;> simp_all [Event.inProducerDomain, Event.inConsumerDomain]

/-- An event of clk_p changes nothing that clk_c sees (10_state.md R20). -/
theorem Action.consumerView {s t : State} {e : Event} (ha : Action s e t) (he : e.inProducerDomain = true) :
    t.consumerView = s.consumerView := by
  cases ha with
  | read e _ _ hc => exact absurd (hc.symm.trans (Event.inConsumerDomain_of_producer he)) nofun
  | host e _ _ hc _ => exact absurd (hc.symm.trans (Event.inConsumerDomain_of_producer he)) nofun
  | sync w => exact State.consumerView_gateEvent s.consumerView_syncEvent
  | sample w v =>
    have hq : ((s.arm false).sampleEvent v).consumerView = (s.arm false).consumerView := rfl
    exact (State.consumerView_gateEvent hq).trans (s.consumerView_arm false)
  | cycle b => exact s.consumerView_arm b
  | write => exact s.consumerView_producerWrite
  | capture x k t hs =>
    rcases State.sync_cases hs with
      ⟨c, rfl, _, rfl⟩ | ⟨c, _, _, rfl⟩ | ⟨c, _, _, rfl⟩ | ⟨c, _, _, rfl⟩ | ⟨c, rfl, _, rfl⟩ | ⟨c, rfl, _, rfl⟩
    case inr.inl | inr.inr.inl | inr.inr.inr.inl => rfl
    all_goals cases he
  | xfer | internal | blink | reset | releaseP | releaseC => cases he

/-- What no host write changes: the producer's registers, the ring, FATAL_C. -/
theorem HostAction.frame {s t : State} (ha : HostAction s t) :
    t.par = s.par ∧ t.head = s.head ∧ t.headG = s.headG ∧ t.tailS = s.tailS ∧ t.ovf = s.ovf ∧
    t.penS.stages = s.penS.stages ∧ t.fatS = s.fatS ∧ t.pLost = s.pLost ∧ t.pq = s.pq ∧ t.markArmed = s.markArmed ∧
    t.mem = s.mem ∧ t.fatalC = s.fatalC := by
  cases ha with
  | ctrl v =>
    unfold State.writeCtrl State.setProdEn
    split <;> simp
  | status v => simp [State.writeStatus]
  | _ => simp

/-- What no event of clk_c changes: the registers of clk_p and the ring memory (10_state.md R20). -/
theorem Action.producer_frame {s t : State} {e : Event} (ha : Action s e t) (he : e.inConsumerDomain = true) :
    t.head = s.head ∧ t.headG = s.headG ∧ t.tailS.stages = s.tailS.stages ∧ t.ovf = s.ovf ∧
    t.penS.stages = s.penS.stages ∧ t.fatS.stages = s.fatS.stages ∧ t.pLost = s.pLost ∧ t.pq = s.pq ∧
    t.markArmed = s.markArmed ∧ t.mem = s.mem ∧ t.par = s.par := by
  cases ha with
  | read e _ _ _ => simp
  | host e host t _ ha =>
    obtain ⟨hpar, hhead, hheadG, htailS, hovf, hpen, hfat, hlost, hpq, harm, hmem, _⟩ := ha.frame
    exact ⟨hhead, hheadG, by rw [htailS], hovf, hpen, by rw [hfat], hlost, hpq, harm, hmem, hpar⟩
  | xfer tx _ => simp
  | internal _ => simp
  | blink => simp
  | capture x k t hs =>
    rcases State.sync_cases hs with
      ⟨c, _, _, rfl⟩ | ⟨c, rfl, _, rfl⟩ | ⟨c, rfl, _, rfl⟩ | ⟨c, rfl, _, rfl⟩ | ⟨c, _, _, rfl⟩ | ⟨c, _, _, rfl⟩
    case inr.inl | inr.inr.inl | inr.inr.inr.inl => cases he
    all_goals simp
  | sync | sample | cycle | write | reset | releaseP | releaseC => cases he

/-- Settles O53: an event of a domain is dropped, or it is an action that the other domain does not see. -/
theorem domainsSeparate : Obligations.DomainsSeparate := by
  intro s t e h
  rcases State.runEvent_cases h with ⟨_, rfl⟩ | ⟨_, ht⟩
  · simp
  · have ha := State.takeEvent_action ht
    refine ⟨fun he => ?_, ha.producer_frame⟩
    have hv := ha.consumerView he
    simp only [State.consumerView, State.mk.injEq, Chain.mk.injEq] at hv
    simp [hv]

/-! ### Flags that stay set -/

/-- A synchronizer step changes nothing but chains. -/
theorem State.sync_chains {s t : State} {x : Crossing} {k : Capture} (h : s.sync x k = some t) :
    t = { s with
      headS := t.headS, tailS := t.tailS, penS := t.penS, fatS := t.fatS, ovfS := t.ovfS, plostS := t.plostS } := by
  rcases State.sync_cases h with
    ⟨c, _, _, rfl⟩ | ⟨c, _, _, rfl⟩ | ⟨c, _, _, rfl⟩ | ⟨c, _, _, rfl⟩ | ⟨c, _, _, rfl⟩ | ⟨c, _, _, rfl⟩ <;> rfl

theorem FatalC.isSet_iff (c : FatalC) : c.isSet = true ↔ c ≠ .none := by cases c <;> simp [FatalC.isSet]

/-- A FATAL_C that is set is not written again (60_exceptions.md R223). -/
theorem State.finish_fatalC {s : State} (h : s.fatalC ≠ .none) (c : Code) : (s.finish c).fatalC = s.fatalC := by
  simp [State.fatalUpdate, (FatalC.isSet_iff _).mpr h]

theorem ByteAction.fatalC {s t : State} (ha : ByteAction s t) (h : s.fatalC ≠ .none) : t.fatalC = s.fatalC := by
  cases ha with
  | finishes c code _ => exact State.finish_fatalC (s := s.load c) h code
  | _ => rfl

/-- An engine event that is no XFER ends no operation. -/
theorem State.internal_completion (s : State) :
    s.internal.code = s.code ∧ s.internal.fatalC = s.fatalC := by
  rcases s.internal_cases with ⟨h, _⟩ | ⟨_, _, _, h⟩ | ⟨_, h⟩ | ⟨_, _, h⟩ | ⟨_, _, h⟩ | ⟨_, _, h⟩ | ⟨w, i, _, h⟩ <;>
    rw [h]
  case inr.inr.inr.inr.inr.inr => rcases s.serveRead_cases w i with h' | ⟨_, _, _, _, h'⟩ <;> rw [h'] <;> simp
  all_goals exact ⟨rfl, rfl⟩

/-- Only a completion sets FATAL_C, and only from 0; reset alone clears it (10_state.md R36). -/
theorem Action.fatalC {s t : State} {e : Event} (ha : Action s e t) (he : e ≠ .resetAssert) (h : s.fatalC ≠ .none) :
    t.fatalC = s.fatalC := by
  by_cases hp : e.inProducerDomain = true
  · have hv := congrArg State.fatalC (ha.consumerView hp)
    exact hv
  cases ha with
  | read | releaseP | releaseC => rfl
  | host e host t _ ha =>
    obtain ⟨_, _, _, _, _, _, _, _, _, _, _, hf⟩ := ha.frame
    exact hf
  | xfer tx _ =>
    have hb := State.received_action (s.answerTaken.xfer tx s.cardAnswer) s.cardAnswer
    simpa using hb.fatalC (by simpa using h)
  | internal _ => exact s.internal_completion.2
  | capture x k t hs =>
    rw [State.sync_chains hs]
  | blink => simp
  | reset => exact absurd rfl he
  | sync | sample | cycle | write => exact absurd rfl hp

/-- An event that may be gated clears no latched flag where what it is gated to clears none. -/
theorem State.gateEvent_latched {s accept : State} (ho : accept.ovf = s.ovf) (hp : accept.pLost = s.pLost) :
    (s.ovf = true → (s.gateEvent accept).ovf = true) ∧ (s.pLost = true → (s.gateEvent accept).pLost = true) := by
  rcases s.gateEvent_cases accept with ⟨_, hg⟩ | ⟨_, _, _, _, hg⟩ | ⟨_, _, _, _, hg⟩ <;> simp [hg, ho, hp]

/-- OVF and P_LOST are set by the producer and cleared by reset alone (10_state.md R26, R29). -/
theorem Action.latched {s t : State} {e : Event} (ha : Action s e t) (he : e ≠ .resetAssert) :
    (s.ovf = true → t.ovf = true) ∧ (s.pLost = true → t.pLost = true) := by
  by_cases hc : e.inConsumerDomain = true
  · obtain ⟨_, _, _, ho, _, _, hp, _⟩ := ha.producer_frame hc
    simp [ho, hp]
  cases ha with
  | sync w => exact State.gateEvent_latched (by simp) (by simp)
  | sample w v => simpa using State.gateEvent_latched (s := s.arm false) (accept := (s.arm false).sampleEvent v) rfl rfl
  | cycle b => simp
  | write =>
    rcases s.producerWrite_cases with ⟨_, hw⟩ | ⟨_, _, hw⟩ | ⟨b, rest, _, _, _, _, hw⟩ | ⟨b, rest, _, _, _, _, hw⟩ <;>
      simp [hw]
  | capture x k t hs =>
    rw [State.sync_chains hs]
    exact ⟨id, id⟩
  | releaseP | releaseC => exact ⟨id, id⟩
  | reset => exact absurd rfl he
  | read | host => exact absurd ‹_› hc
  | xfer | internal | blink => exact absurd rfl hc

/-- Settles O17: each latch by the actions that could clear it. -/
theorem stickyFlags : Obligations.StickyFlags := by
  intro s t h he
  obtain ⟨_, ⟨_, rfl⟩ | ⟨_, ha⟩⟩ := step_cases h
  · simp
  · obtain ⟨ho, hp⟩ := ha.latched he
    exact ⟨by simpa using ho, by simpa using hp, by simpa using ha.fatalC he⟩

end Sys2Proof.Machine

namespace Sys2Proof.Machine

/-! ### Register offsets (10_state.md R40) -/

/-- The offset of an address is the multiple of four at or below it (20_memory.md R75). -/
theorem wordOffset_toNat (addr : BitVec 12) : (wordOffset addr).toNat = 4 * (addr.toNat / 4) := by
  have h : wordOffset addr = (addr >>> 2) <<< 2 := by
    unfold wordOffset
    ext i hi
    interval_cases i <;> simp
  rw [h, BitVec.toNat_shiftLeft, BitVec.toNat_ushiftRight, Nat.shiftRight_eq_div_pow, Nat.shiftLeft_eq]
  have := addr.isLt
  omega

/-- Which addresses are a register's. -/
theorem wordOffset_eq_iff {addr a : BitVec 12} (h : a.toNat % 4 = 0) :
    wordOffset addr = a ↔ addr.toNat / 4 = a.toNat / 4 := by
  rw [← BitVec.toNat_inj, wordOffset_toNat]
  omega

/-- A host write to a register other than CMD goes on. -/
theorem State.takeEvent_hostWrite (s : State) {addr : BitVec 12} (v : Word) (h : wordOffset addr ≠ cmdOffset) :
    s.takeEvent (.hostWrite addr v) = .next (s.hostWrite addr v) := if_neg h

/-- CMD is below 0x008. -/
theorem wordOffset_ne_cmd {addr : BitVec 12} (h : 0x008 ≤ addr.toNat) : wordOffset addr ≠ cmdOffset := fun e =>
  absurd ((wordOffset_eq_iff rfl).mp e) (by simp [cmdOffset]; omega)

/-- No `CFG_*` register is below 0x040 or above 0x077. -/
theorem Cfg.write_none (c : Cfg) {addr : BitVec 12} (v : Word) (h : addr.toNat < 0x040 ∨ 0x077 < addr.toNat) :
    c.write (wordOffset addr) v = none := by
  have ha := wordOffset_toNat addr
  unfold Cfg.write
  split
  case h_15 => rfl
  all_goals
    rename_i e
    rw [e] at ha
    simp only [BitVec.toNat_ofNat] at ha
    omega

/-- A write past STATUS is a `CFG_*` register's or nobody's, and waits for the end of an operation
(41_host_commands.md R156). -/
theorem State.hostWrite_past_status (s : State) {addr : BitVec 12} (v : Word) (h : 0x010 ≤ addr.toNat) :
    s.hostWrite addr v =
      if s.isBusy then s else { s with cfg := (s.cfg.write (wordOffset addr) v).getD s.cfg } := by
  unfold State.hostWrite
  split
  case h_4 => cases s.cfg.write (wordOffset addr) v <;> simp
  all_goals exact absurd ((wordOffset_eq_iff rfl).mp ‹_›) (by simp; omega)

/-- A write of ARG changes nothing while an operation runs (41_host_commands.md R156). -/
theorem State.hostWrite_arg {s : State} {addr : BitVec 12} (v : Word) (h : wordOffset addr = 0x008#12) :
    s.hostWrite addr v = if s.isBusy then s else { s with arg := v } := by
  simp [State.hostWrite, h]

/-- Every offset outside the map reads 0 (10_state.md R40). -/
theorem State.hostRead_reserved (s : State) {addr : BitVec 12}
    (h : (0x034 ≤ addr.toNat ∧ addr.toNat ≤ 0x03F) ∨ (0x078 ≤ addr.toNat ∧ addr.toNat ≤ 0x1FF) ∨
      0x400 ≤ addr.toNat) : s.hostRead addr = 0#32 := by
  have ha := wordOffset_toNat addr
  have hr : ¬ (0x200#12 ≤ wordOffset addr ∧ wordOffset addr ≤ 0x3FC#12) := by
    simp only [BitVec.le_def, BitVec.toNat_ofNat, ha]
    omega
  unfold State.hostRead
  simp only [if_neg hr]
  split
  case h_27 => rfl
  all_goals
    rename_i e
    rw [e] at ha
    simp only [BitVec.toNat_ofNat] at ha
    omega

/-- Settles O24: no such offset is in the map, and no write takes one. -/
theorem reservedOffsets : Obligations.ReservedOffsets := by
  intro s addr v
  simp only [BitVec.le_def, BitVec.toNat_ofNat]
  have ignored : 0x010 ≤ addr.toNat → (addr.toNat < 0x040 ∨ 0x077 < addr.toNat) →
      s.takeEvent (.hostWrite addr v) = .next s := by
    intro h hw
    rw [s.takeEvent_hostWrite v (wordOffset_ne_cmd (by omega)), s.hostWrite_past_status v h, s.cfg.write_none v hw]
    exact congrArg Host.Outcome.next (ite_self s)
  exact ⟨fun h => ⟨s.hostRead_reserved h, ignored (by omega) (by omega)⟩, fun h => ignored (by omega) (by omega)⟩

/-- Settles O25: both kinds of register test BUSY. -/
theorem writesWhileBusy : Obligations.WritesWhileBusy := by
  intro s addr v hb h
  simp only [BitVec.le_def, BitVec.toNat_ofNat] at h
  rw [s.takeEvent_hostWrite v (wordOffset_ne_cmd (by omega))]
  rcases h with h | h
  · rw [State.hostWrite_arg v ((wordOffset_eq_iff rfl).mpr (by simp; omega)), if_pos hb]
  · rw [s.hostWrite_past_status v (by omega), if_pos hb]

/-- A write of CTRL: the four bits, and the old PROD_EN kept for the crossing where it changes. -/
theorem State.writeCtrl_eq (s : State) (v : Word) :
    s.writeCtrl v = { s with
      ctrl := { prodEn := v.getLsbD 0, ieDone := v.getLsbD 1, ieReady := v.getLsbD 2, ieFatal := v.getLsbD 3 }
      penS := if v.getLsbD 0 = s.ctrl.prodEn then s.penS else { s.penS with old := some s.ctrl.prodEn } } := by
  unfold State.writeCtrl State.setProdEn
  by_cases h : s.ctrl.prodEn = v.getLsbD 0
  · rw [if_pos h, if_pos h.symm, ← h]
  · rw [if_neg h, if_neg (Ne.symm h)]
    rfl

/-- Settles O27: the three writes, each at its own offset. -/
theorem controlWrites : Obligations.ControlWrites := by
  intro s v
  have write : ∀ addr : BitVec 12, wordOffset addr ≠ cmdOffset →
      s.takeEvent (.hostWrite addr v) = .next (s.hostWrite addr v) := fun _ => s.takeEvent_hostWrite v
  refine ⟨?_, ?_, fun hb => ?_⟩
  · rw [write _ (by decide), ← s.writeCtrl_eq v]
    rfl
  · rw [write _ (by decide)]
    rfl
  · rw [write _ (by decide), State.hostWrite_arg v (by decide), hb]
    rfl

end Sys2Proof.Machine

namespace Sys2Proof.Machine

/-! ### Fields of a host word -/

theorem getLsbD_bitAt (b : Bool) (k i : Nat) :
    (bitAt b k).getLsbD i = (decide (i < 32) && decide (i = k) && b) := by
  have hk : decide (i = k) = (!decide (i < k) && decide (i - k = 0)) := by
    rw [Bool.eq_iff_iff]
    simp
    omega
  rw [hk]
  cases b
  · simp [bitAt, bitWord]
  · simp [bitAt, bitWord, Bool.and_assoc]

@[simp] theorem getElem_bitAt (b : Bool) (k i : Nat) (hi : i < 32) : (bitAt b k)[i] = (decide (i = k) && b) := by
  rw [← BitVec.getLsbD_eq_getElem, getLsbD_bitAt]
  simp [hi]

/-- The low `w` bits of a word, as a word. -/
theorem setWidth_extractLsb'_low {w : Nat} (h : w ≤ 32) (v : Word) :
    (v.extractLsb' 0 w).setWidth 32 = v &&& lowMask w := by
  apply BitVec.eq_of_toNat_eq
  rw [and_lowMask_toNat h, BitVec.toNat_setWidth, BitVec.extractLsb'_toNat, Nat.shiftRight_zero]
  exact Nat.mod_eq_of_lt (Nat.lt_of_lt_of_le (Nat.mod_lt _ (Nat.two_pow_pos w)) (Nat.pow_le_pow_right (by decide) h))

/-- A written field as the word a host reads: raised to its minimum. -/
theorem setWidth_atLeast {w : Nat} (h : w ≤ 32) (lo : BitVec w) (v : Word) :
    (atLeast lo (v.extractLsb' 0 w)).setWidth 32 =
      if v &&& lowMask w < lo.setWidth 32 then lo.setWidth 32 else v &&& lowMask w := by
  have hlt : v &&& lowMask w < lo.setWidth 32 ↔ v.extractLsb' 0 w < lo := by
    rw [← setWidth_extractLsb'_low h, BitVec.lt_def, BitVec.lt_def, BitVec.toNat_setWidth_of_le h,
      BitVec.toNat_setWidth_of_le h]
  unfold atLeast
  rw [apply_ite (BitVec.setWidth 32), setWidth_extractLsb'_low h]
  simp only [hlt]

/-- The minimum 1 keeps every value but 0. -/
theorem ite_lt_one (x : Word) : (if x < 1#32 then 1#32 else x) = if x = 0#32 then 1#32 else x := by
  have h : x < 1#32 ↔ x = 0#32 := by
    rw [BitVec.lt_def, ← BitVec.toNat_inj]
    exact Nat.lt_one_iff
  simp only [h]

/-- A written ceiling as the word a host reads. -/
theorem setWidth_atLeast_one {w : Nat} (h0 : 0 < w) (h : w ≤ 32) (v : Word) :
    (atLeast 1#w (v.extractLsb' 0 w)).setWidth 32 =
      if v &&& lowMask w = 0#32 then 1#32 else v &&& lowMask w := by
  have h1 : (1#w).setWidth 32 = 1#32 := by
    apply BitVec.eq_of_toNat_eq
    simp [Nat.mod_eq_of_lt (Nat.one_lt_two_pow h0.ne')]
  rw [setWidth_atLeast h, h1, ite_lt_one]

/-! ### The `CFG_*` registers (10_state.md R54 to R64) -/

/-- The word a `CFG_*` register is read as, by offset. -/
def Cfg.read (c : Cfg) (a : BitVec 12) : Option Word :=
  match a with
  | 0x040#12 => some (c.nIdle.setWidth 32)
  | 0x044#12 => some (c.nNcr.setWidth 32)
  | 0x048#12 => some (c.nCmd0.setWidth 32)
  | 0x04C#12 => some (c.nCmd8.setWidth 32)
  | 0x050#12 => some (c.nCmd58.setWidth 32)
  | 0x054#12 => some (c.nCmd55.setWidth 32)
  | 0x058#12 => some (c.nAcmdR1.setWidth 32)
  | 0x05C#12 => some (c.nAcmd41.setWidth 32)
  | 0x060#12 => some c.nRdtok
  | 0x064#12 => some (c.nDresp.setWidth 32)
  | 0x068#12 => some c.nBusy
  | 0x06C#12 => some (c.nPre.setWidth 32)
  | 0x070#12 => some (c.maxInit.setWidth 32)
  | 0x074#12 => some c.spiWord
  | _ => none

/-- What a host reads where the `CFG_*` registers alone differ. -/
theorem State.hostRead_withCfg (s : State) (d : Cfg) (addr : BitVec 12) :
    ({ s with cfg := d } : State).hostRead addr = (d.read (wordOffset addr)).getD (s.hostRead addr) := by
  unfold State.hostRead
  generalize wordOffset addr = a
  dsimp only
  by_cases h : 0x200#12 ≤ a ∧ a ≤ 0x3FC#12
  · simp only [if_pos h]
    unfold Cfg.read
    split
    case h_15 => rfl
    all_goals exact absurd h (by decide)
  · simp only [if_neg h]
    split
    case h_27 =>
      unfold Cfg.read
      simp only [Option.getD_none]
    all_goals rfl

/-- A write changes no other register. -/
theorem Cfg.read_write_other {c d : Cfg} {a b : BitVec 12} {v : Word} (h : c.write a v = some d) (hb : b ≠ a) :
    d.read b = c.read b := by
  unfold Cfg.write at h
  split at h
  case h_15 => cases h
  all_goals
    cases h
    unfold Cfg.read
    split <;> trivial

/-- A write of a `CFG_*` register by an idle block: it reads back as stored, and nothing else changes. -/
theorem State.cfg_written (s : State) {a : BitVec 12} {v value : Word} {d : Cfg} (hb : s.isBusy = false)
    (ha : wordOffset a = a) (h : 0x010 ≤ a.toNat) (hw : s.cfg.write a v = some d) (hr : d.read a = some value) :
    ∃ t : State, s.takeEvent (.hostWrite a v) = .next t ∧ t.hostRead a = value ∧
      ({ t with cfg := s.cfg } : State) = s ∧
      ∀ other : BitVec 12, other &&& 0xFFC#12 ≠ a → t.hostRead other = s.hostRead other := by
  refine ⟨{ s with cfg := d }, ?_, ?_, rfl, fun other ho => ?_⟩
  · rw [s.takeEvent_hostWrite v (wordOffset_ne_cmd (by omega))]
    simp [s.hostWrite_past_status v h, hb, ha, hw]
  · rw [s.hostRead_withCfg, ha, hr, Option.getD_some]
  · replace ho : wordOffset other ≠ a := ho
    rw [s.hostRead_withCfg, Cfg.read_write_other hw ho, ← s.hostRead_withCfg]

/-- `CFG_SPI` as written and read back. -/
theorem Cfg.spiWord_written (c : Cfg) (v : Word) :
    Cfg.spiWord { c with divSlow := v.extractLsb' 0 8, divFast := v.extractLsb' 8 8, stopSkip := v.getLsbD 16 } =
      v &&& 0x1FFFF#32 := by
  apply BitVec.eq_of_getLsbD_eq
  intro i hi
  interval_cases i <;> simp [Cfg.spiWord]

/-- Settles O26: each register stores its field raised to its minimum, and reads back what it stores. -/
theorem ceilingMinimum : Obligations.CeilingMinimum := by
  intro s v hb written
  have idle : ∀ {a value d}, wordOffset a = a → 0x010 ≤ a.toNat → s.cfg.write a v = some d → d.read a = some value →
      written a value := s.cfg_written hb
  refine ⟨?_, ?_, ?_, ?_, ?_, ?_⟩
  · exact idle rfl (by decide) rfl (congrArg some (setWidth_atLeast (by decide) 20#8 v))
  · exact idle rfl (by decide) rfl (congrArg some (setWidth_atLeast_one (by decide) (by decide) v))
  · have half := setWidth_atLeast_one (w := 16) (by decide) (by decide) v
    intro addr ha
    simp only [List.mem_cons, List.not_mem_nil, or_false] at ha
    rcases ha with rfl | rfl | rfl | rfl | rfl | rfl | rfl | rfl <;>
      exact idle rfl (by decide) rfl (congrArg some half)
  · intro addr ha
    simp only [List.mem_cons, List.not_mem_nil, or_false] at ha
    rcases ha with rfl | rfl <;> exact idle rfl (by decide) rfl (congrArg some (ite_lt_one v))
  · exact idle rfl (by decide) rfl (congrArg some (setWidth_atLeast_one (by decide) (by decide) v))
  · exact idle rfl (by decide) rfl (congrArg some (s.cfg.spiWord_written v))

end Sys2Proof.Machine

namespace Sys2Proof.Machine

/-! ### The words a host reads -/

/-- The one-bit fields of STATUS (10_state.md R44). -/
theorem State.statusWord_bits (s : State) :
    s.statusWord.getLsbD 0 = s.isBusy ∧ s.statusWord.getLsbD 1 = s.done ∧ s.statusWord.getLsbD 2 = s.blockReady ∧
    s.statusWord.getLsbD 3 = s.cmdLost ∧ s.statusWord.getLsbD 6 = false ∧ s.statusWord.getLsbD 7 = s.fast ∧
    s.statusWord.getLsbD 18 = s.ovfSeen ∧ s.statusWord.getLsbD 19 = s.ccs ∧
    s.statusWord.getLsbD 23 = s.pLostSeen := by
  refine ⟨?_, ?_, ?_, ?_, ?_, ?_, ?_, ?_, ?_⟩ <;> simp [State.statusWord]

/-- The wider fields of STATUS (10_state.md R44). -/
theorem State.statusWord_fields (s : State) :
    s.statusWord.extractLsb' 4 2 = s.session.bits ∧ s.statusWord.extractLsb' 8 8 = s.code.byte ∧
    s.statusWord.extractLsb' 16 2 = s.fatal ∧ s.statusWord.extractLsb' 20 3 = s.attempts ∧
    s.statusWord.extractLsb' 24 8 = 0#8 := by
  refine ⟨?_, ?_, ?_, ?_, ?_⟩
  all_goals
    apply BitVec.eq_of_getLsbD_eq
    intro i hi
    interval_cases i <;> simp [State.statusWord]

/-- Settles O19: the read is `statusWord`, whose fields are the registers. -/
theorem statusFields : Obligations.StatusFields := by
  intro s
  have read : s.hostRead 0x00C#12 = s.statusWord := rfl
  rw [read]
  obtain ⟨busy, done, ready, lost, zero, fast, ovf, ccs, plost⟩ := s.statusWord_bits
  obtain ⟨session, code, fatal, attempts, reserved⟩ := s.statusWord_fields
  refine ⟨rfl, rfl, busy, done, ready, lost, ?_, zero, fast, code, ?_, fatal, ovf, ccs, attempts, plost, reserved⟩
  · rw [session]
    cases s.session <;> rfl
  · rw [fatal]
    unfold State.fatal State.ovfSeen Chain.last
    cases s.fatalC <;> rfl

/-- Byte `j` of a word of four bytes. -/
theorem extractLsb'_four_bytes (b : Nat → Byte) {j : Nat} (hj : j < 4) :
    (b 3 ++ b 2 ++ b 1 ++ b 0).extractLsb' (8 * j) 8 = b j := by
  match j with
  | 0 => rw [BitVec.extractLsb'_append_eq_of_add_le (by decide), BitVec.extractLsb'_eq_self]
  | 1 =>
    rw [BitVec.extractLsb'_append_eq_of_le (by decide), BitVec.extractLsb'_append_eq_of_add_le (by decide),
      BitVec.extractLsb'_eq_self]
  | 2 =>
    rw [BitVec.extractLsb'_append_eq_of_le (by decide), BitVec.extractLsb'_append_eq_of_le (by decide),
      BitVec.extractLsb'_append_eq_of_add_le (by decide), BitVec.extractLsb'_eq_self]
  | 3 =>
    rw [BitVec.extractLsb'_append_eq_of_le (by decide), BitVec.extractLsb'_append_eq_of_le (by decide),
      BitVec.extractLsb'_append_eq_of_le (by decide), BitVec.extractLsb'_eq_self]

/-- The RDBUF words are at `0x200 + 4k` (10_state.md R65). -/
theorem State.hostRead_rdbuf (s : State) {k : Nat} (hk : k < 128) :
    s.hostRead (BitVec.ofNat 12 (0x200 + 4 * k)) = s.rdbufWord (4 * k) := by
  have ha : (BitVec.ofNat 12 (0x200 + 4 * k)).toNat = 0x200 + 4 * k := by
    rw [BitVec.toNat_ofNat]
    omega
  have hw : wordOffset (BitVec.ofNat 12 (0x200 + 4 * k)) = BitVec.ofNat 12 (0x200 + 4 * k) :=
    (wordOffset_eq_iff (by omega)).mpr rfl
  unfold State.hostRead
  simp only [hw, BitVec.le_def, ha]
  rw [if_pos ⟨by simp, by simp; omega⟩, Nat.add_sub_cancel_left]

/-- Settles O21: the offset is `0x200 + 4k` itself, and the word there is four bytes. -/
theorem readBufferWords : Obligations.ReadBufferWords := by
  intro s hl k j hk hj
  have hb : s.rdbuf[4 * k + j]? = some (s.rdbufByte (4 * k + j)) := by
    unfold State.rdbufByte
    rw [List.getD_eq_getElem _ _ (by omega), List.getElem?_eq_getElem (by omega)]
  rw [hb, s.hostRead_rdbuf hk]
  exact congrArg some (extractLsb'_four_bytes (fun m => s.rdbufByte (4 * k + m)) hj).symm

/-! ### CODE while an operation runs -/

/-- A received byte that ends no operation leaves CODE alone. -/
theorem ByteAction.code {s t : State} (ha : ByteAction s t) (hb : t.isBusy = true) : t.code = s.code := by
  cases ha with
  | finishes c code _ => simp [State.isBusy] at hb
  | _ => rfl

/-- No host write changes the CODE of a running operation. -/
theorem HostAction.code {s t : State} (ha : HostAction s t) (hb : t.isBusy = true) : t.code = s.code := by
  cases ha with
  | completed c h => exact absurd (h.symm.trans hb) nofun
  | ctrl v => rw [s.writeCtrl_eq v]
  | _ => rfl

/-- Where an operation runs after an event other than reset, the event has not changed CODE
(41_host_commands.md R150). -/
theorem Action.code {s t : State} {e : Event} (ha : Action s e t) (he : e ≠ .resetAssert) (hb : t.isBusy = true) :
    t.code = s.code := by
  by_cases hp : e.inProducerDomain = true
  · have hv := congrArg State.code (ha.consumerView hp)
    exact hv
  cases ha with
  | read | releaseP | releaseC => rfl
  | host e host t _ ha => exact ha.code hb
  | xfer tx _ =>
    have hr := State.received_action (s.answerTaken.xfer tx s.cardAnswer) s.cardAnswer
    simpa using hr.code hb
  | internal _ => exact s.internal_completion.1
  | capture x k t hs =>
    rw [State.sync_chains hs]
  | blink => simp
  | reset => exact absurd rfl he
  | sync | sample | cycle | write => exact absurd rfl hp

/-! ### The other registers -/

/-- The engine's position and captured argument are read nowhere but in BUSY (41_host_commands.md R158). -/
theorem State.hostRead_hidden {s : State} {p : Pos} (a : Word) (addr : BitVec 12)
    (hp : ({ s with pos := p } : State).isBusy = s.isBusy) :
    ({ s with pos := p, opArg := a } : State).hostRead addr = s.hostRead addr := by
  have status : ({ s with pos := p, opArg := a } : State).statusWord = s.statusWord := by
    have hp' : ({ s with pos := p, opArg := a } : State).isBusy = s.isBusy := hp
    unfold State.statusWord
    rw [hp']
    rfl
  unfold State.hostRead
  rw [status]
  rfl

/-- The bits of CTRL (10_state.md R41). -/
theorem State.ctrlWord_bits (s : State) :
    s.ctrlWord.getLsbD 0 = s.ctrl.prodEn ∧ s.ctrlWord.getLsbD 1 = s.ctrl.ieDone ∧
    s.ctrlWord.getLsbD 2 = s.ctrl.ieReady ∧ s.ctrlWord.getLsbD 3 = s.ctrl.ieFatal ∧
    s.ctrlWord.extractLsb' 4 28 = 0#28 := by
  refine ⟨?_, ?_, ?_, ?_, ?_⟩
  case refine_5 =>
    apply BitVec.eq_of_getLsbD_eq
    intro i hi
    interval_cases i <;> simp [State.ctrlWord]
  all_goals simp [State.ctrlWord]

/-- A parameter's field holds its low bits. -/
theorem ofNat_mod_two_pow (w n : Nat) : BitVec.ofNat 32 (n % 2 ^ w) = (BitVec.ofNat w n).setWidth 32 := by
  apply BitVec.eq_of_toNat_eq
  simp

/-- The fields of PARAM (10_state.md R52). -/
theorem State.paramWord_fields (s : State) :
    s.paramWord.extractLsb' 0 6 = BitVec.ofNat 6 s.par.n ∧ s.paramWord.extractLsb' 6 2 = 0#2 ∧
    s.paramWord.extractLsb' 8 4 = BitVec.ofNat 4 s.par.s ∧ s.paramWord.getLsbD 12 = s.par.lsbFirst ∧
    s.paramWord.getLsbD 13 = s.par.crcLiteral ∧ s.paramWord.extractLsb' 14 18 = 0#18 := by
  have hn : BitVec.ofNat 32 (s.par.n % 64) = (BitVec.ofNat 6 s.par.n).setWidth 32 := ofNat_mod_two_pow 6 _
  have hs : BitVec.ofNat 32 (s.par.s % 16) = (BitVec.ofNat 4 s.par.s).setWidth 32 := ofNat_mod_two_pow 4 _
  refine ⟨?_, ?_, ?_, ?_, ?_, ?_⟩
  case refine_4 | refine_5 => simp [State.paramWord, hn, hs]
  all_goals
    apply BitVec.eq_of_getLsbD_eq
    intro i hi
    interval_cases i <;> simp [State.paramWord, hn, hs]

/-- A half word read with 0 above it. -/
theorem setWidth_half (x : BitVec 16) : x.setWidth 32 = (0#16 ++ x : BitVec 32) := by
  apply BitVec.eq_of_toNat_eq
  refine Eq.trans ?_ (BitVec.toNat_append 0#16 x).symm
  rw [BitVec.toNat_setWidth_of_le (by decide)]
  simp

/-- LAST (10_state.md R45): two bytes with 0 above them. -/
theorem State.lastWord_eq (s : State) : s.lastWord = (0#16 ++ s.lastTok ++ s.lastR1 : BitVec 32) := by
  have h : s.lastTok.toNat <<< 8 < 2 ^ 32 := by
    have := s.lastTok.isLt
    rw [Nat.shiftLeft_eq]
    omega
  apply BitVec.eq_of_toNat_eq
  refine Eq.trans ?_ (BitVec.toNat_append (0#16 ++ s.lastTok) s.lastR1).symm
  rw [State.lastWord, BitVec.toNat_append, BitVec.toNat_or, BitVec.toNat_shiftLeft,
    BitVec.toNat_setWidth_of_le (by decide), BitVec.toNat_setWidth_of_le (by decide), Nat.mod_eq_of_lt h, Nat.or_comm]
  simp

/-- Settles O20: registers by their words, CODE by the actions that could change it. -/
theorem registerReads : Obligations.RegisterReads := by
  refine ⟨fun s p a addr hb hp => ?_, fun s t h he hb => ?_, fun s _ => ?_⟩
  · have busy : ({ s with pos := p } : State).isBusy = s.isBusy := by
      rw [hb]
      exact (State.isBusy_iff _).mpr hp
    exact ⟨State.hostRead_hidden a addr busy, rfl⟩
  · have read (u : State) : (u.hostRead 0x00C#12).extractLsb' 8 8 = u.code.byte := by
      obtain ⟨_, code, _⟩ := u.statusWord_fields
      exact code
    rw [read, read]
    obtain ⟨_, ⟨_, rfl⟩ | ⟨_, ha⟩⟩ := step_cases h
    · simp
    · simp [ha.code he hb]
  · obtain ⟨prodEn, ieDone, ieReady, ieFatal, ctrl⟩ := s.ctrlWord_bits
    obtain ⟨n, zero, stages, lsbFirst, crcLiteral, param⟩ := s.paramWord_fields
    exact ⟨prodEn, ieDone, ieReady, ieFatal, ctrl, rfl, rfl, s.lastWord_eq, rfl, rfl, rfl, rfl, rfl, rfl,
      n, zero, stages, lsbFirst, crcLiteral, param, setWidth_half s.rdcrc⟩

end Sys2Proof.Machine

namespace Sys2Proof.Machine

/-! ### Where a step fetches -/

/-- A step takes the first event of the agenda, where its domain runs. -/
theorem step_agenda {s : State} {e : Event} {rest : List Event} (hl : s.par.legal = true) (ha : s.agenda = e :: rest)
    (hh : Event.held e { s with agenda := rest } = false) :
    step s = ({ s with agenda := rest } : State).takeEvent e := by
  have hn : s.nextEvent = e := by simp [State.nextEvent, ha]
  have ht : s.eventTaken = { s with agenda := rest } := by simp [State.eventTaken, ha]
  rw [step, if_pos hl, hn, ht, State.runEvent, hh]
  rfl

/-- A word that decodes is run as its instruction. -/
theorem State.runWord_decoded {f : Format} {w : Word} {i : Instr} (h : decode f w = .instr i) (s : State) :
    s.runWord f w = exec i s := by
  simp [State.runWord, h]

/-- A write to CMD runs the word written (10_state.md R42). -/
theorem State.hostWriteEvent_cmd {addr : BitVec 12} {w : Word} {i : Instr} (ha : wordOffset addr = cmdOffset)
    (h : decode .hostop w = .instr i) (s : State) : s.hostWriteEvent addr w = exec i s := by
  rw [State.hostWriteEvent, if_pos ha, State.runWord_decoded h]

/-- Settles O8: one port after the other. -/
theorem stepRunsDecoded : Obligations.StepRunsDecoded := by
  refine ⟨?hostWrite, ?hostLine, ?producer, ?send, ?receive, ?plain⟩
  case hostWrite =>
    intro s rest addr w i hl hr ha haddr hd
    rw [step_agenda hl ha hr]
    exact State.hostWriteEvent_cmd haddr hd _
  case hostLine =>
    intro s rest addr w i hl hr ha hline haddr hd
    rw [step_agenda hl ha hr, State.takeEvent, State.hostLineEvent, hline]
    exact State.hostWriteEvent_cmd haddr hd _
  case producer =>
    intro s rest w i hl hr ha hd
    rw [step_agenda hl ha hr]
    exact State.runWord_decoded hd _
  case send =>
    intro s rest f tx i hl hr ha hp htx hd
    have hs : s.sentWord = tx.setWidth 32 := by simp [State.sentWord, htx]
    rw [step_agenda hl ha hr, State.takeEvent, State.engineEvent, hp]
    exact State.runWord_decoded (hs ▸ hd) _
  case receive =>
    intro s rest more f b i hl hr ha hp hm hd
    have hi : receivedInstr f b = some i := by simp [receivedInstr, hd]
    rw [step_agenda hl ha hr, State.takeEvent, State.engineEvent, hp]
    simp [State.cardAnswer, State.answerTaken, hm, hi]
  case plain =>
    intro s rest more f why tx b hl hr ha _ htx hm _
    rw [step_agenda hl ha hr]
    exact State.engineEvent_scripted htx hm

end Sys2Proof.Machine

namespace Sys2Proof.Machine

/-! ### Counts behind a gray-coded cursor (40_ring_buffer.md R137) -/

/-- `gray2bin` undoes `bin2gray` (30_encoding.md R112). -/
theorem gray2bin_bin2gray {w : Nat} {b : Word} (hw : 1 ≤ w) (hb : b.toNat < 2 ^ w) : gray2bin w (bin2gray b) = b := by
  have hz : b >>> w = 0#32 := by
    apply BitVec.eq_of_toNat_eq
    rw [BitVec.toNat_ushiftRight, Nat.shiftRight_eq_div_pow, Nat.div_eq_of_lt hb]
    rfl
  rw [gray2bin, grayPrefix_bin2gray, Nat.sub_add_cancel hw, hz, BitVec.xor_zero]

/-- The gray code of a `w`-bit cursor that has advanced `k` times. -/
def grayCursor (w k : Nat) : Word := bin2gray (BitVec.ofNat 32 (k % 2 ^ w))

@[simp] theorem grayCursor_zero (w : Nat) : grayCursor w 0 = 0#32 := by simp [grayCursor]

/-- A gray code that crossed shows the cursor at the count behind it. -/
theorem gray2bin_grayCursor {w : Nat} (hw : 1 ≤ w) (h : w ≤ 32) (k : Nat) :
    (gray2bin w (grayCursor w k)).toNat = k % 2 ^ w := by
  have hk : k % 2 ^ w < 2 ^ w := Nat.mod_lt _ (Nat.two_pow_pos w)
  have hn : (BitVec.ofNat 32 (k % 2 ^ w)).toNat = k % 2 ^ w :=
    Nat.mod_eq_of_lt (Nat.lt_of_lt_of_le hk (Nat.pow_le_pow_right (by decide) h))
  rw [grayCursor, gray2bin_bin2gray hw (by rwa [hn]), hn]

/-- One more advance of a cursor. -/
theorem addMod_one_of_count {w : Nat} (h : w ≤ 32) {a : Word} {k : Nat} (ha : a.toNat = k % 2 ^ w) :
    (addMod w a 1#32).toNat = (k + 1) % 2 ^ w := by
  rw [addMod_toNat h, ha]
  exact Nat.mod_add_mod k (2 ^ w) 1

/-- The last of some counts is at most the count they precede. -/
theorem getLastD_le_of_order {n : Nat} {ks : List Nat} (h : (n :: ks).Pairwise fun a b => b ≤ a) :
    ks.getLastD 0 ≤ n := by
  rcases List.eq_nil_or_concat ks with rfl | ⟨l, k, rfl⟩
  · exact Nat.zero_le n
  · simpa using (List.pairwise_cons.mp h).1 k

/-- The last count does not fall when a newer count is shifted in. -/
theorem getLastD_le_shift {n : Nat} {ks : List Nat} (h : (n :: ks).Pairwise fun a b => b ≤ a) :
    ks.getLastD 0 ≤ ((n :: ks).dropLast).getLastD 0 := by
  induction ks generalizing n with
  | nil => exact Nat.zero_le _
  | cons k ks ih =>
    cases ks with
    | nil => simpa using h
    | cons k' ks => simpa using ih (List.pairwise_cons.mp h).2

/-- The stages of a chain are `f` of earlier values `ks` of a count that is now `n`, first stage first; a value
remembered from before the latest change is that of the count before. -/
structure Chain.Counts (c : Chain Word) (f : Nat → Word) (n : Nat) (ks : List Nat) : Prop where
  stages : c.stages = ks.map f
  order : (n :: ks).Pairwise fun a b => b ≤ a
  old : ∀ g, c.old = some g → g = f (n - 1) ∧ ∀ k ∈ ks, k < n

section
variable {c : Chain Word} {f : Nat → Word} {n : Nat} {ks : List Nat}

theorem Chain.Counts.le (h : c.Counts f n ks) : ∀ k ∈ ks, k ≤ n := (List.pairwise_cons.mp h.order).1

/-- The destination's view is the last count. -/
theorem Chain.Counts.last (h : c.Counts f n ks) (h0 : f 0 = 0#32) : c.last 0#32 = f (ks.getLastD 0) := by
  rw [Chain.last, h.stages, ← h0]
  rcases List.eq_nil_or_concat ks with rfl | ⟨l, k, rfl⟩ <;> simp

/-- The source counts one further. -/
theorem Chain.Counts.changed (h : c.Counts f n ks) : (c.changed (f n)).Counts f (n + 1) ks where
  stages := h.stages
  order := by
    refine List.pairwise_cons.mpr ⟨fun k hk => ?_, (List.pairwise_cons.mp h.order).2⟩
    exact Nat.le_succ_of_le (h.le k hk)
  old := by
    rintro g ⟨⟩
    exact ⟨rfl, fun k hk => Nat.lt_succ_of_le (h.le k hk)⟩

/-- A synchronizer step shifts in the source's count or the one before: the counts stay in order, and the
destination's does not fall (40_ring_buffer.md R136, R138). -/
theorem Chain.Counts.sync {d : Chain Word} {k : Capture} (h : c.Counts f n ks)
    (hs : c.sync id (f n) k = some d) :
    ∃ ks', d.Counts f n ks' ∧ ks.getLastD 0 ≤ ks'.getLastD 0 := by
  obtain ⟨v, rfl, hv⟩ := Chain.sync_cases hs
  obtain ⟨m, rfl, hm, hks⟩ : ∃ m, v = f m ∧ m ≤ n ∧ ∀ k ∈ ks, k ≤ m := by
    rcases hv with rfl | hv
    · exact ⟨n, rfl, Nat.le_refl n, h.le⟩
    · obtain ⟨rfl, hlt⟩ := h.old v hv
      exact ⟨n - 1, rfl, Nat.sub_le n 1, fun k hk => Nat.le_sub_one_of_lt (hlt k hk)⟩
  have order : (m :: ks).Pairwise fun a b => b ≤ a :=
    List.pairwise_cons.mpr ⟨hks, (List.pairwise_cons.mp h.order).2⟩
  have full : (n :: m :: ks).Pairwise fun a b => b ≤ a :=
    List.pairwise_cons.mpr ⟨List.forall_mem_cons.mpr ⟨hm, h.le⟩, order⟩
  refine ⟨(m :: ks).dropLast, ⟨?_, ?_, nofun⟩, getLastD_le_shift order⟩
  · rw [Chain.shift_stages, h.stages, List.map_dropLast, List.map_cons]
  · exact full.sublist ((List.dropLast_sublist _).cons_cons n)

/-- After reset every count is 0. -/
theorem Chain.Counts.const (h0 : f 0 = 0#32) (s : Nat) : (Chain.const s 0#32).Counts f 0 (List.replicate s 0) where
  stages := by rw [List.map_replicate, h0]; rfl
  order := List.pairwise_cons.mpr
    ⟨fun _ hk => Nat.le_of_eq (List.eq_of_mem_replicate hk), List.pairwise_replicate.mpr (.inr (Nat.le_refl 0))⟩
  old := nofun

end

end Sys2Proof.Machine

namespace Sys2Proof.Machine

/-- The difference of two cursors is that of their counts. -/
theorem subMod_toNat_of_counts {w : Nat} (h : w ≤ 32) {a b : Word} {m k : Nat} (ha : a.toNat = m % 2 ^ w)
    (hb : b.toNat = k % 2 ^ w) (hk : k ≤ m) : (subMod w a b).toNat = (m - k) % 2 ^ w := by
  have hlt : b.toNat ≤ 2 ^ 32 := Nat.le_of_lt b.isLt
  rw [subMod_toNat h]
  refine Nat.ModEq.add_right_cancel' b.toNat ?_
  calc 2 ^ 32 - b.toNat + a.toNat + b.toNat
      = a.toNat + 2 ^ 32 := by omega
    _ ≡ m + 0 [MOD 2 ^ w] := by
        rw [ha]
        exact (Nat.mod_modEq m _).add ((Nat.modEq_zero_iff_dvd).mpr (pow_dvd_pow 2 h))
    _ = m - k + k := by omega
    _ ≡ m - k + b.toNat [MOD 2 ^ w] := by
        rw [hb]
        exact ((Nat.mod_modEq k _).symm).add_left _

/-! ### The ring invariant, operation by operation -/

/-- The registers, the memory and the counts that the ring invariant speaks of, but the engine's position. -/
def State.ringRegs (s : State) : Params × Word × Chain Word × Word × Chain Word × Nat × Bool × Memory × List Byte :=
  (s.par, s.head, s.headS, s.tailB, s.tailS, s.freed, s.ovf, s.mem, s.ringLog)

section
variable {s : State} {hs ts : List Nat} (h : RingCounts s hs ts)
include h

/-- What leaves the ring alone, and finds no new block, keeps the counts. -/
theorem RingCounts.congr {t : State} (hr : t.ringRegs = s.ringRegs)
    (hp : t.pos.holdsBlock = true → s.pos.holdsBlock = true) : RingCounts t hs ts := by
  cases s
  cases t
  simp only [State.ringRegs, Prod.mk.injEq] at hr
  obtain ⟨rfl, rfl, rfl, rfl, rfl, rfl, rfl, rfl, rfl⟩ := hr
  exact { h with held := fun ht => h.held (hp ht) }

/-- The engine may go anywhere that its block allows. -/
theorem RingCounts.goto {p : Pos} (hp : p.holdsBlock = true → 512 * (s.freed + 1) ≤ hs.getLastD 0) :
    RingCounts (s.goto p) hs ts :=
  { h with held := hp }

theorem RingCounts.load (c : CardRegs) : RingCounts (s.load c) hs ts := h.congr rfl id

theorem RingCounts.finish (c : Code) : RingCounts (s.finish c) hs ts :=
  h.congr (by simp [State.ringRegs]) (by simp [Pos.holdsBlock])

/-- The counts of HEAD that crossed to clk_c. -/
theorem RingCounts.headCounts : s.headS.Counts (grayCursor s.par.n) s.written hs :=
  ⟨h.headStages, h.headOrder, h.headOld⟩

/-- The counts of TAIL that crossed to clk_p. -/
theorem RingCounts.tailCounts : s.tailS.Counts (grayCursor s.par.tb) s.freed ts :=
  ⟨h.tailStages, h.tailOrder, h.tailOld⟩

/-- The consumer sees no byte before it is written (40_ring_buffer.md R138). -/
theorem RingCounts.seen_le_written : hs.getLastD 0 ≤ s.written := getLastD_le_of_order h.headOrder

/-- The producer sees no block released before it is (40_ring_buffer.md R138). -/
theorem RingCounts.seen_le_freed : ts.getLastD 0 ≤ s.freed := getLastD_le_of_order h.tailOrder

/-- SYNC_HEAD. -/
theorem RingCounts.syncHead {c : Chain Word} {hs' : List Nat} (hc : c.Counts (grayCursor s.par.n) s.written hs')
    (hle : hs.getLastD 0 ≤ hs'.getLastD 0) : RingCounts { s with headS := c } hs' ts :=
  { h with
    headStages := hc.stages
    headOrder := hc.order
    headOld := hc.old
    released := Nat.le_trans h.released hle
    held := fun hp => Nat.le_trans (h.held hp) hle }

/-- SYNC_TAIL: the producer sees more room. -/
theorem RingCounts.syncTail {c : Chain Word} {ts' : List Nat} (hc : c.Counts (grayCursor s.par.tb) s.freed ts')
    (hle : ts.getLastD 0 ≤ ts'.getLastD 0) : RingCounts { s with tailS := c } hs ts' :=
  have more : 512 * ts.getLastD 0 + s.par.cap ≤ 512 * ts'.getLastD 0 + s.par.cap := by omega
  { h with
    tailStages := hc.stages
    tailOrder := hc.order
    tailOld := hc.old
    room := Nat.le_trans h.room more
    open_room := fun ho => Nat.lt_of_lt_of_le (h.open_room ho) more }

/-- A byte of the stream is written where its count says, over the oldest byte kept. -/
theorem RingCounts.contents_write (b : Byte) (j : Nat) (hj : j < s.written + 1) (hc : s.written + 1 ≤ j + s.par.cap) :
    Memory.read (Memory.write s.mem s.head.toNat b) (j % s.par.cap) = (b :: s.ringLog).reverse[j]? := by
  rw [h.head, List.reverse_cons]
  rcases Nat.lt_or_eq_of_le (Nat.le_of_lt_succ hj) with hlt | rfl
  · have hne : j % s.par.cap ≠ s.written % s.par.cap := by
      intro he
      have := Nat.le_of_dvd (by omega) ((Nat.modEq_iff_dvd' (Nat.le_of_lt hlt)).mp he)
      omega
    rw [Memory.read_write_other b hne, List.getElem?_append_left (by simpa [State.written] using hlt)]
    exact h.contents j hlt (by omega)
  · rw [Memory.read_write_same]
    simp [State.written]

end

section
variable {s : State} (d : DataInv s) {hs ts : List Nat} (h : RingCounts s hs ts)
include d h

/-- `HEAD_G` is the gray code of the count of bytes written. -/
theorem RingCounts.headG : s.headG = grayCursor s.par.n s.written := by
  rw [d.headG, grayCursor, ← Params.cap, ← h.head, BitVec.ofNat_toNat, BitVec.setWidth_eq]

/-- `TAIL_G` is the gray code of the count of blocks released. -/
theorem RingCounts.tailG : s.tailG = grayCursor s.par.tb s.freed := by
  rw [d.tailG, grayCursor, ← h.tail, BitVec.ofNat_toNat, BitVec.setWidth_eq]

/-- `TAIL` is the offset of the first byte not released. -/
theorem RingCounts.tail_toNat : s.tail.toNat = 512 * s.freed % s.par.cap := by
  rw [State.tail_toNat d.legal d.tailB, h.tail, Params.cap_eq d.legal, Nat.mul_mod_mul_left]

/-- `HEAD_C` is the offset after the last byte that the consumer knows of. -/
theorem RingCounts.headC_toNat : s.headC.toNat = hs.getLastD 0 % s.par.cap := by
  obtain ⟨hn, hn', _⟩ := (Params.legal_iff _).mp d.legal
  rw [State.headC, h.headCounts.last (grayCursor_zero _), gray2bin_grayCursor (by omega) hn', Params.cap]

/-- `TAIL_P` is the offset after the last block that the producer knows to be released. -/
theorem RingCounts.tailP_toNat : s.tailP.toNat = 512 * ts.getLastD 0 % s.par.cap := by
  obtain ⟨hn, hn', _⟩ := (Params.legal_iff _).mp d.legal
  have htb : 1 ≤ s.par.tb := by unfold Params.tb; omega
  have hcap := Params.two_pow_tb_le d.legal
  have hlt : ts.getLastD 0 % 2 ^ s.par.tb < 2 ^ s.par.tb := Nat.mod_lt _ (Nat.two_pow_pos _)
  rw [State.tailP, h.tailCounts.last (grayCursor_zero _), BitVec.toNat_shiftLeft,
    gray2bin_grayCursor htb d.widths.2, Nat.shiftLeft_eq, Params.cap_eq d.legal, Nat.mul_mod_mul_left]
  omega

/-- BLOCK_READY says that a whole block not yet released is written (40_ring_buffer.md R128, R132). -/
theorem RingCounts.block_of_ready (hb : s.blockReady = true) : 512 * (s.freed + 1) ≤ hs.getLastD 0 := by
  have hr := h.released
  have hp : s.pending.toNat = (hs.getLastD 0 - 512 * s.freed) % s.par.cap :=
    subMod_toNat_of_counts d.widths.1 (h.headC_toNat d) (h.tail_toNat d) hr
  have hb' : 512 ≤ s.pending.toNat := by simpa [State.blockReady, BitVec.le_def] using hb
  have hm := Nat.mod_le (hs.getLastD 0 - 512 * s.freed) s.par.cap
  omega

theorem RingCounts.start {op : HostOp} (hp : s.precheck op = none) : RingCounts (s.start op) hs ts := by
  have ready : (s.firstPos op).holdsBlock = true → s.blockReady = true := by
    intro hf
    cases op with
    | writeBlock | writeSegment => simpa [State.precheck, State.needBlock] using (Option.or_eq_none_iff.mp hp).2
    | _ => cases hf
  exact { h with held := fun hf => h.block_of_ready d (ready hf) }

theorem RingCounts.hostAction {t : State} (ha : HostAction s t) : RingCounts t hs ts := by
  cases ha with
  | started op _ _ hp => exact h.start d hp
  | ctrl v => exact h.congr (by simp [State.ringRegs, State.writeCtrl]) (by simp [State.writeCtrl])
  | _ => exact h.congr rfl id

/-- ADVANCE_TAIL, where the engine holds the block it releases (40_ring_buffer.md R130, R131). -/
theorem RingCounts.advanceTail (hb : 512 * (s.freed + 1) ≤ hs.getLastD 0) {p : Pos} (hp : p.holdsBlock = false) :
    RingCounts (s.advanceTail.goto p) hs ts := by
  have hc := h.tailG d ▸ h.tailCounts.changed
  exact { h with
    tail := addMod_one_of_count d.widths.2 h.tail
    tailStages := hc.stages
    tailOrder := hc.order
    tailOld := hc.old
    released := hb
    held := fun hf => absurd (hp.symm.trans hf) nofun }

/-- A received byte keeps the counts where it moves the tail from a held block only. -/
theorem RingCounts.byteAction {t : State} (ha : ByteAction s t)
    (hn : s.pos.holdsBlock = false → t.freed = s.freed ∧ t.pos.holdsBlock = false) : RingCounts t hs ts := by
  have held : t.pos.holdsBlock = true → 512 * (s.freed + 1) ≤ hs.getLastD 0 := by
    intro ht
    refine h.held (Bool.of_not_eq_false fun hf => ?_)
    exact absurd ((hn hf).2.symm.trans ht) nofun
  cases ha with
  | nothing => exact h
  | goes c p _ _ _ => exact (h.load c).goto held
  | requests w i _ => exact { h with held := held }
  | accepts c k left _ =>
    have hb : s.pos.holdsBlock = true :=
      Bool.of_not_eq_false fun hf => absurd (hn hf).1 (Nat.succ_ne_self s.freed)
    exact (h.advanceTail d (h.held hb) (p := .busyPoll k left) rfl).congr rfl id
  | finishes c e _ => exact (h.load c).finish e

/-- HEAD meets TAIL_P where the ring is full, as far as the producer knows (40_ring_buffer.md R125). -/
theorem RingCounts.meets_tailP (hw : s.written + 1 = 512 * ts.getLastD 0 + s.par.cap) :
    addMod s.par.n s.head 1#32 = s.tailP := by
  apply BitVec.eq_of_toNat_eq
  rw [addMod_one_of_count d.widths.1 h.head, hw, h.tailP_toNat d]
  exact Nat.add_mod_right _ _

/-- One ring write, which freezes the producer where HEAD meets TAIL_P (40_ring_buffer.md R122, R125). -/
theorem RingCounts.writeByte (b : Byte) (ho : s.ovf = false) {frozen : Bool}
    (hv : frozen = false → addMod s.par.n s.head 1#32 ≠ s.tailP) :
    RingCounts { (s.memWrite s.head b).advanceHead with ovf := frozen } hs ts := by
  have hc := h.headG d ▸ h.headCounts.changed
  have hw := h.open_room ho
  exact { h with
    head := addMod_one_of_count d.widths.1 h.head
    headStages := hc.stages
    headOrder := hc.order
    headOld := hc.old
    room := hw
    open_room := fun hf => Nat.lt_of_le_of_ne hw fun he => hv hf (h.meets_tailP d he)
    contents := h.contents_write b }

theorem RingCounts.producerWrite : RingCounts s.producerWrite hs ts := by
  rcases s.producerWrite_cases with
    ⟨_, hw⟩ | ⟨_, _, hw⟩ | ⟨b, rest, _, ho, _, _, hw⟩ | ⟨b, rest, _, ho, _, hne, hw⟩ <;> rw [hw]
  · exact h
  · exact h.congr rfl id
  · exact (h.writeByte d b ho (frozen := true) nofun).congr (by simp [State.ringRegs]) (by simp)
  · exact (h.writeByte d b ho (frozen := false) fun _ => hne).congr (by simp [State.ringRegs, ho]) (by simp)

end

end Sys2Proof.Machine

namespace Sys2Proof.Machine

/-! ### Where a block is held -/

/-- WRITE_BLOCK holds its block throughout its exchange, and no other exchange holds one. -/
@[simp] theorem Pos.holdsBlock_exchange (x : Site) :
    (Pos.select x).holdsBlock = decide (x = .cmd24) ∧ (Pos.command x).holdsBlock = decide (x = .cmd24) ∧
    (∀ i, (Pos.frame x i).holdsBlock = decide (x = .cmd24)) ∧
    ∀ left, (Pos.poll x left).holdsBlock = decide (x = .cmd24) := by
  cases x <;> simp [Pos.holdsBlock]

theorem State.attemptFailed_noBlock (s : State) (att : Nat) (c : Code) :
    (s.attemptFailed att c).freed = s.freed ∧ (s.attemptFailed att c).pos.holdsBlock = false := by
  rcases s.attemptFailed_cases att c with ⟨_, h⟩ | ⟨_, h⟩ <;> simp [h, Pos.holdsBlock]

theorem State.passDone_noBlock (s : State) (p : Pass) (ok : Bool) :
    (s.passDone p ok).freed = s.freed ∧ (s.passDone p ok).pos.holdsBlock = false := by
  rcases s.passDone_cases p ok with ⟨_, h⟩ | ⟨_, h⟩ | ⟨att, c, h⟩ | ⟨_, _, h⟩ | h <;> rw [h]
  case inr.inr.inl => exact s.attemptFailed_noBlock att c
  all_goals simp [Pos.holdsBlock]

theorem State.afterTrail_noBlock (s : State) (a : After) :
    (s.afterTrail a).freed = s.freed ∧ (s.afterTrail a).pos.holdsBlock = false := by
  cases a with
  | pass p ok => exact s.passDone_noBlock p ok
  | finish c | leave c => simp [State.afterTrail, Pos.holdsBlock]

theorem State.r1Done_noBlock (s : State) {x : Site} (r : Byte) (hx : x ≠ .cmd24) :
    (s.r1Done x r).freed = s.freed ∧ (s.r1Done x r).pos.holdsBlock = false := by
  unfold State.r1Done
  repeat' split
  case h_3.isTrue | h_3.isFalse => exact absurd rfl hx
  all_goals exact ⟨rfl, rfl⟩

theorem State.respDone_noBlock (s : State) (p : Pass) (v : Word) :
    (s.respDone p v).freed = s.freed ∧ (s.respDone p v).pos.holdsBlock = false := by
  cases p <;> exact ⟨rfl, rfl⟩

theorem State.busyCleared_noBlock (s : State) (k : BusyKind) :
    (s.busyCleared k).freed = s.freed ∧ (s.busyCleared k).pos.holdsBlock = false := by
  cases k <;> simp [State.busyCleared, Pos.holdsBlock]

theorem State.busyTimeout_noBlock (s : State) (k : BusyKind) :
    (s.busyTimeout k).freed = s.freed ∧ (s.busyTimeout k).pos.holdsBlock = false := by
  cases k <;> exact ⟨rfl, rfl⟩

/-- An engine that holds no block releases none and takes none with a received byte: only the start of an operation
takes a block, and only a data response releases one. -/
theorem State.received_noBlock (s : State) (r : Byte) (h : s.pos.holdsBlock = false) :
    (s.received r).freed = s.freed ∧ (s.received r).pos.holdsBlock = false := by
  unfold State.received
  split <;> rename_i hp
  case h_1 | h_2 => exact ⟨rfl, rfl⟩ -- idle clock
  case h_3 x => exact ⟨rfl, by simpa [hp] using h⟩ -- command byte
  case h_4 x i => split <;> exact ⟨rfl, by simpa [hp] using h⟩ -- frame byte
  case h_5 x left => -- response poll
    have hx : x ≠ .cmd24 := by simpa [hp] using h
    repeat' split
    · exact State.r1Done_noBlock { s with lastR1 := r } r hx
    · exact State.r1Done_noBlock { s with lastR1 := r } r hx
    · exact ⟨rfl, by simpa using hx⟩
  case h_6 p got acc => -- response bytes
    split
    · exact ⟨rfl, rfl⟩
    · exact s.respDone_noBlock p _
  case h_7 a => exact s.afterTrail_noBlock a -- trailing byte
  case h_8 left => -- token poll
    split
    · exact ⟨rfl, rfl⟩
    · split <;> exact ⟨rfl, rfl⟩
  case h_9 i => split <;> exact ⟨rfl, rfl⟩ -- payload byte of a read
  case h_10 | h_11 => exact ⟨rfl, rfl⟩ -- CRC bytes
  case h_12 => simp [Pos.holdsBlock] -- gap byte of a session
  case h_13 | h_14 | h_15 | h_16 | h_17 | h_18 | h_19 => -- positions that hold a block
    rw [hp] at h
    cases h
  case h_20 k left => -- busy poll
    split
    · exact s.busyCleared_noBlock k
    · split
      · exact s.busyTimeout_noBlock k
      · exact ⟨rfl, rfl⟩
  case h_21 => split <;> exact ⟨rfl, rfl⟩ -- stop token
  case h_22 => exact ⟨rfl, rfl⟩ -- stuff byte
  all_goals exact ⟨rfl, h⟩ -- positions without an XFER

/-- An engine event that is no XFER leaves the ring alone, and neither takes nor gives back a block. -/
theorem State.internal_ring (s : State) :
    s.internal.ringRegs = s.ringRegs ∧ s.internal.pos.holdsBlock = s.pos.holdsBlock := by
  rcases s.internal_cases with
    ⟨h, _⟩ | ⟨_, _, _, h⟩ | ⟨hp, h⟩ | ⟨_, hp, h⟩ | ⟨_, hp, h⟩ | ⟨_, hp, h⟩ | ⟨w, i, hp, h⟩ <;> rw [h]
  · exact ⟨rfl, rfl⟩
  · exact ⟨rfl, rfl⟩
  · exact ⟨rfl, by rw [hp]; rfl⟩
  · exact ⟨rfl, by rw [hp]; rfl⟩
  · exact ⟨rfl, by simp [hp]⟩
  · exact ⟨rfl, by rw [hp]; rfl⟩
  · rcases s.serveRead_cases w i with h' | ⟨_, _, _, _, h'⟩ <;> rw [h']
    · exact ⟨rfl, rfl⟩
    · exact ⟨rfl, by rw [hp]; rfl⟩

/-! ### The ring invariant, event by event -/

/-- The ring right after reset, whatever the memory holds (70_reset_and_hazards.md R240). -/
theorem RingCounts.empty {s : State} (hw : s.ringLog = []) (hf : s.freed = 0) (hh : s.head = 0#32)
    (ht : s.tailB = 0#32) (hhs : s.headS = Chain.const s.par.s 0#32) (hts : s.tailS = Chain.const s.par.s 0#32)
    (hp : s.pos = .idle) : RingCounts s (List.replicate s.par.s 0) (List.replicate s.par.s 0) := by
  have hw' : s.written = 0 := by rw [State.written, hw]; rfl
  have hc : s.headS.Counts (grayCursor s.par.n) s.written (List.replicate s.par.s 0) := by
    rw [hhs, hw']
    exact .const (grayCursor_zero _) _
  have tc : s.tailS.Counts (grayCursor s.par.tb) s.freed (List.replicate s.par.s 0) := by
    rw [hts, hf]
    exact .const (grayCursor_zero _) _
  have hcap : 0 < s.par.cap := Nat.two_pow_pos _
  exact {
    head := by rw [hh, hw', Nat.zero_mod]; rfl
    headStages := hc.stages
    headOrder := hc.order
    headOld := hc.old
    tail := by rw [ht, hf, Nat.zero_mod]; rfl
    tailStages := tc.stages
    tailOrder := tc.order
    tailOld := tc.old
    released := by rw [hf]; exact Nat.zero_le _
    held := by rw [hp]; nofun
    room := by rw [hw']; exact Nat.zero_le _
    open_room := by rw [hw']; omega
    contents := by rw [hw']; nofun }

theorem State.resetWith_ringInv (p : Params) : RingInv (State.resetWith p) :=
  ⟨_, _, .empty rfl rfl rfl rfl rfl rfl rfl⟩

theorem State.ringRegs_gateEvent {s accept : State} (h : accept.ringRegs = s.ringRegs) (hp : accept.pos = s.pos) :
    (s.gateEvent accept).ringRegs = s.ringRegs ∧ (s.gateEvent accept).pos = s.pos := by
  rcases s.gateEvent_cases accept with ⟨_, hg⟩ | ⟨_, _, _, _, hg⟩ | ⟨_, _, _, _, hg⟩ <;> rw [hg]
  · exact ⟨rfl, rfl⟩
  · exact ⟨h, hp⟩
  · simp [State.ringRegs]

/-- A synchronizer step moves the counts of its own crossing forward. -/
theorem RingInv.sync {s t : State} {x : Crossing} {k : Capture} (d : DataInv s) (h : RingInv s)
    (hx : s.sync x k = some t) : RingInv t := by
  obtain ⟨hs, ts, h⟩ := h
  rcases State.sync_cases hx with
    ⟨c, _, hc, rfl⟩ | ⟨c, _, hc, rfl⟩ | ⟨c, _, _, rfl⟩ | ⟨c, _, _, rfl⟩ | ⟨c, _, _, rfl⟩ | ⟨c, _, _, rfl⟩
  · obtain ⟨hs', hc', hle⟩ := h.headCounts.sync (h.headG d ▸ hc)
    exact ⟨hs', ts, h.syncHead hc' hle⟩
  · obtain ⟨ts', hc', hle⟩ := h.tailCounts.sync (h.tailG d ▸ hc)
    exact ⟨hs, ts', h.syncTail hc' hle⟩
  all_goals exact ⟨hs, ts, h.congr rfl id⟩

/-- Every event that its domain takes keeps the invariant. -/
theorem RingInv.action {s t : State} {e : Event} (d : DataInv s) (hi : RingInv s) (ha : Action s e t) : RingInv t := by
  have ⟨hs, ts, h⟩ := hi
  cases ha with
  | read e host w _ => exact ⟨hs, ts, h.congr rfl id⟩
  | host e host t _ ha =>
    have dh : DataInv { s with host := host } := { d with }
    have hh : RingCounts { s with host := host } hs ts := h.congr rfl id
    exact ⟨hs, ts, hh.hostAction dh ha⟩
  | sync w =>
    obtain ⟨hr, hp⟩ := State.ringRegs_gateEvent (s := s) (accept := s.syncEvent) (by simp [State.ringRegs]) (by simp)
    exact ⟨hs, ts, h.congr hr (by rw [hp]; exact id)⟩
  | sample w v =>
    obtain ⟨hr, hp⟩ := State.ringRegs_gateEvent (s := s.arm false) (accept := (s.arm false).sampleEvent v) rfl rfl
    exact ⟨hs, ts, h.congr hr (by rw [hp]; exact id)⟩
  | cycle b => exact ⟨hs, ts, h.congr (by simp [State.ringRegs]) (by simp)⟩
  | write => exact ⟨hs, ts, h.producerWrite d⟩
  | xfer tx htx =>
    have dx := d.answerTaken.xfer tx s.cardAnswer
    have hx : RingCounts (s.answerTaken.xfer tx s.cardAnswer) hs ts := h.congr (by simp [State.ringRegs]) (by simp)
    exact ⟨hs, ts, hx.byteAction dx (State.received_action _ _) (State.received_noBlock _ _)⟩
  | internal _ =>
    obtain ⟨hr, hp⟩ := s.internal_ring
    exact ⟨hs, ts, h.congr hr (by rw [hp]; exact id)⟩
  | capture x k t hx => exact hi.sync d hx
  | blink => exact ⟨hs, ts, h.congr (by simp [State.ringRegs]) (by simp)⟩
  | reset => exact ⟨_, _, .empty rfl rfl rfl rfl rfl rfl rfl⟩
  | releaseP | releaseC => exact ⟨hs, ts, h.congr rfl id⟩

/-- Settles O58: a step drops its event or takes it, and no event that is taken breaks the counts. -/
theorem ringInvKept : Obligations.RingInvKept := by
  intro s t d ⟨hs, ts, h⟩ hst
  have he : RingInv s.eventTaken := ⟨hs, ts, h.congr (by simp [State.ringRegs]) (by simp)⟩
  obtain ⟨_, ⟨_, rfl⟩ | ⟨_, ha⟩⟩ := step_cases hst
  · exact he
  · exact he.action d.eventTaken ha

end Sys2Proof.Machine

namespace Sys2Proof.Machine

/-! ### The engine's reads of the ring (20_memory.md R69 to R71, R83, R85) -/

/-- Where the engine waits for a payload byte its event is the arbiter's. -/
theorem State.engineEvent_memRead {s : State} {w : WriteKind} {i : Nat} (hp : s.pos = .memRead w i) :
    s.engineEvent = .next (s.serveRead w i) := by
  rw [State.engineEvent_internal (by simp [State.nextTx, hp]), State.internal, hp]

/-- The state after the pending read at `off` was performed and returned `b`. -/
def State.readServed (s : State) (w : WriteKind) (i : Nat) (off : Word) (b : Byte) : State :=
  { s with memReq := none, mport := MemPort.idle, memReads := off :: s.memReads, pos := .payload w i b }

/-- A read is performed in one event where the producer has no byte to write (20_memory.md R69). -/
theorem State.serveRead_quiet {s : State} {off : Word} (w : WriteKind) (i : Nat) (hm : s.memReq = some off)
    (hq : s.pq = []) (hr : s.rstP = false) : s.serveRead w i = s.readServed w i off (s.ringByte off) := by
  simp [State.serveRead, State.readServed, hm, hq, hr]

/-- The producer goes first, and clk_p performs nothing in reset. -/
theorem State.serveRead_blocked {s : State} (w : WriteKind) (i : Nat) (h : s.pq ≠ [] ∨ s.rstP = true) :
    s.serveRead w i = s := by
  rcases s.serveRead_cases w i with hs | ⟨_, _, hq, hr, _⟩
  · exact hs
  · rcases h with h | h
    · exact absurd hq h
    · exact absurd (hr.symm.trans h) nofun

/-- The byte last written at an offset is the one read there (20_memory.md R70). -/
theorem State.ringByte_written {s : State} {off : Word} {b : Byte} (h : Memory.read s.mem off.toNat = some b) :
    s.ringByte off = b := by rw [State.ringByte, h, Option.getD_some]

/-- An offset never written reads as its free value (20_memory.md R70). -/
theorem State.ringByte_unwritten {s : State} {off : Word} (h : Memory.read s.mem off.toNat = none) :
    s.ringByte off = Config.ringByte off.toNat := by rw [State.ringByte, h, Option.getD_none]

section
variable {s : State} (d : DataInv s) {hs ts : List Nat} (h : RingCounts s hs ts) {w : WriteKind} {i : Nat}
  (hp : s.pos = .memRead w i)
include d

/-- Payload byte `i` is one of the block's 512. -/
theorem DataInv.payload_lt (hp : s.pos = .memRead w i) : i < 512 := by
  have hc := d.counters
  rwa [hp] at hc

include h hp

/-- The pending read of payload byte `i` is at the ring offset of stream byte `512 k + i`, with `k` blocks released. -/
theorem RingCounts.payload_request :
    s.memReq = some (BitVec.ofNat 32 ((512 * s.freed + i) % s.par.cap)) ∧
      (BitVec.ofNat 32 ((512 * s.freed + i) % s.par.cap)).toNat = (512 * s.freed + i) % s.par.cap := by
  have hi := d.payload_lt hp
  have hoff : 512 * s.tailB.toNat + i = (512 * s.freed + i) % s.par.cap := by
    have hquot : (512 * s.freed + i) / 512 = s.freed := by omega
    rw [h.tail, Params.cap_eq d.legal, Nat.mod_mul, hquot]
    omega
  have hreq : s.memReq = some (addMod s.par.n s.tail (BitVec.ofNat 32 i)) := by rw [d.request, hp]; rfl
  have hnat := (State.tail_add_toNat d.legal d.tailB hi).trans hoff
  rw [hreq, ← hnat, BitVec.ofNat_toNat, BitVec.setWidth_eq]
  exact ⟨rfl, rfl⟩

/-- The block being sent is written and not overwritten, so its bytes are the stream's (20_memory.md R83). -/
theorem RingCounts.payload_read :
    ∃ b, s.streamByte (512 * s.freed + i) = some b ∧
      Memory.read s.mem ((512 * s.freed + i) % s.par.cap) = some b := by
  have hi := d.payload_lt hp
  have hheld := h.held (by rw [hp]; rfl)
  have hseen := h.seen_le_written
  have hfreed := h.seen_le_freed
  have hroom := h.room
  have hw : 512 * s.freed + i < s.written := by omega
  have hl : 512 * s.freed + i < s.ringLog.reverse.length := by rwa [List.length_reverse]
  refine ⟨s.ringLog.reverse[512 * s.freed + i], List.getElem?_eq_getElem hl, ?_⟩
  rw [h.contents _ hw (by omega)]
  exact List.getElem?_eq_getElem hl

end

/-- Settles O50: the pending read is at the byte's offset, and the ring holds the stream's byte there. -/
theorem streamInOrder : Obligations.StreamInOrder := by
  intro s w i d ⟨hs, ts, h⟩ hp hq hr
  obtain ⟨hreq, hoff⟩ := h.payload_request d hp
  obtain ⟨b, hb, hread⟩ := h.payload_read d hp
  refine ⟨b, hb, ?_⟩
  rw [State.engineEvent_memRead hp, State.serveRead_quiet w i hreq hq hr,
    State.ringByte_written (hoff.symm ▸ hread), State.readServed, ← d.mport]

/-! ### A fair run serves every read (70_reset_and_hazards.md R255) -/

/-- Payload byte `i` is to be read at `off`, and the read is not performed yet. -/
structure State.Waits (s : State) (w : WriteKind) (i : Nat) (off : Word) : Prop where
  pos : s.pos = .memRead w i
  memReq : s.memReq = some off

/-- The producer is out of reset and has no byte to write. -/
structure State.Quiet (s : State) : Prop where
  pq : s.pq = []
  rstP : s.rstP = false

/-- No host write reaches a waiting engine. -/
theorem HostAction.waits {s t : State} {w : WriteKind} {i : Nat} {off : Word} (ha : HostAction s t)
    (h : s.Waits w i off) : t.Waits w i off := by
  have hb : s.isBusy ≠ false := by simp [State.isBusy, h.pos]
  cases ha with
  | completed c hf => exact absurd hf hb
  | started op hf _ _ => exact absurd hf hb
  | ctrl v => exact ⟨by simpa [State.writeCtrl] using h.pos, by simpa [State.writeCtrl] using h.memReq⟩
  | _ => exact ⟨h.pos, h.memReq⟩

/-- A waiting engine goes on waiting until its read is performed, in an event of its own. -/
theorem Action.waits {s t : State} {e : Event} {w : WriteKind} {i : Nat} {off : Word} (ha : Action s e t)
    (he : e ≠ .resetAssert) (h : s.Waits w i off) :
    t.Waits w i off ∨ e = .engine ∧ t = s.readServed w i off (s.ringByte off) := by
  by_cases hd : e.inProducerDomain = true
  · have hv := ha.consumerView hd
    exact .inl ⟨(congrArg State.pos hv).trans h.pos, (congrArg State.memReq hv).trans h.memReq⟩
  cases ha with
  | read | releaseP | releaseC => exact .inl ⟨h.pos, h.memReq⟩
  | host e host t _ ha => exact .inl (ha.waits ⟨h.pos, h.memReq⟩)
  | xfer tx htx => exact absurd h.pos (State.noRequest_of_nextTx htx w i)
  | internal _ =>
    have hi : s.internal = s.serveRead w i := by rw [State.internal, h.pos]
    rw [hi]
    rcases s.serveRead_cases w i with hs | ⟨_, _, hq, hr, _⟩
    · exact .inl (by rwa [hs])
    · exact .inr ⟨rfl, State.serveRead_quiet w i h.memReq hq hr⟩
  | capture x k t hs =>
    rw [State.sync_chains hs]
    exact .inl ⟨h.pos, h.memReq⟩
  | blink => exact .inl ⟨by simpa using h.pos, by simpa using h.memReq⟩
  | reset => exact absurd rfl he
  | sync | sample | cycle | write => exact absurd rfl hd

/-- A producer whose sample port is idle stays quiet. -/
theorem Action.quiet {s t : State} {e : Event} (ha : Action s e t) (he : e ≠ .resetAssert)
    (hw : ∀ w, e ≠ .producerEvent w) (hc : ∀ p, e ≠ .producerCycle p) (h : s.Quiet) : t.Quiet := by
  obtain ⟨hq, hr⟩ := h
  cases ha with
  | read => exact ⟨hq, hr⟩
  | host e host t _ ha =>
    cases ha with
    | ctrl v => exact ⟨by simpa [State.writeCtrl] using hq, by simpa [State.writeCtrl] using hr⟩
    | _ => exact ⟨hq, hr⟩
  | sync w => exact absurd rfl (hw w)
  | sample w v => exact absurd rfl (hw w)
  | cycle b => exact absurd rfl (hc b)
  | write =>
    have hs : s.producerWrite = s := by rw [State.producerWrite, hq]
    rw [hs]
    exact ⟨hq, hr⟩
  | xfer tx _ => exact ⟨by simpa using hq, by simpa using hr⟩
  | internal _ => exact ⟨by simpa using hq, by simpa using hr⟩
  | capture x k t hs =>
    rw [State.sync_chains hs]
    exact ⟨hq, hr⟩
  | blink => exact ⟨by simpa using hq, by simpa using hr⟩
  | reset => exact absurd rfl he
  | releaseP => exact ⟨hq, rfl⟩
  | releaseC => exact ⟨hq, hr⟩

section
variable {event : Nat → Event} {run : Nat → State} (hf : FairRun event run)
include hf

/-- Each event of the run is dropped or taken. -/
theorem FairRun.action (k : Nat) : run (k + 1) = run k ∨ Action (run k) (event k) (run (k + 1)) := by
  rcases State.runEvent_cases (hf.events k) with ⟨_, h⟩ | ⟨_, h⟩
  · exact .inl h
  · exact .inr (State.takeEvent_action h)

/-- The engine's event, where its domain runs. -/
theorem FairRun.engine_step {k : Nat} (he : event k = .engine) (hr : (run k).rstC = false) :
    (run k).engineEvent = .next (run (k + 1)) := by
  have h := hf.events k
  rw [he, State.runEvent, Event.held, hr] at h
  exact h

variable {k : Nat} {w : WriteKind} {i : Nat} {off : Word} (hreset : ∀ j, k ≤ j → event j ≠ .resetAssert)
include hreset

/-- A read that no engine event performs goes on waiting. -/
theorem FairRun.waits_forever (hw : (run k).Waits w i off)
    (hs : ∀ j, k ≤ j → event j = .engine → (run j).Waits w i off →
      run (j + 1) ≠ (run j).readServed w i off ((run j).ringByte off)) :
    ∀ j, k ≤ j → (run j).Waits w i off := by
  intro j hj
  induction j, hj using Nat.le_induction with
  | base => exact hw
  | succ j hj ih =>
    rcases hf.action j with h | ha
    · rwa [h]
    · rcases ha.waits (hreset j hj) ih with h | ⟨he, h⟩
      · exact h
      · exact absurd h (hs j hj he ih)

/-- While a read waits, a quiet producer stays quiet: the arbiter lets no sample in before the read. -/
theorem FairRun.quiet_forever (hw : ∀ j, k ≤ j → (run j).Waits w i off) (hq : (run k).Quiet) :
    ∀ j, k ≤ j → (run j).Quiet := by
  intro j hj
  induction j, hj using Nat.le_induction with
  | base => exact hq
  | succ j hj ih =>
    have hu : (run j).unservedRead ≠ none := by rw [State.unservedRead, (hw j hj).memReq]; nofun
    obtain ⟨hev, hcy⟩ := hf.arbiter j hu ih.pq ih.rstP
    rcases hf.action j with h | ha
    · rwa [h]
    · exact ha.quiet (hreset j hj) hev hcy ih

/-- A waiting read is performed: sooner or later the producer is quiet, stays so, and the engine has its turn. -/
theorem FairRun.read_served (hw : (run k).Waits w i off) :
    ∃ j, k ≤ j ∧ event j = .engine ∧ (run j).Waits w i off ∧
      run (j + 1) = (run j).readServed w i off ((run j).ringByte off) := by
  by_contra hno
  have waits := hf.waits_forever hreset hw fun j hj he hj' hs => hno ⟨j, hj, he, hj', hs⟩
  obtain ⟨m, hm, hq, hr⟩ := hf.source k
  have quiet := hf.quiet_forever (k := m) (fun j hj => hreset j (hm.trans hj)) (fun j hj => waits j (hm.trans hj))
    ⟨hq, hr⟩
  obtain ⟨j, hj, he, hc⟩ := hf.engine m
  obtain ⟨hq, hr⟩ := quiet j hj
  have hw := waits j (hm.trans hj)
  have hs := (State.engineEvent_memRead hw.pos).symm.trans (hf.engine_step he hc)
  rw [State.serveRead_quiet w i hw.memReq hq hr] at hs
  exact hno ⟨j, hm.trans hj, he, hw, (Host.Outcome.next.inj hs).symm⟩

end

/-- Settles O45: liveness from the fair run, the rest from what the arbiter does. -/
theorem memReadServed : Obligations.MemReadServed := by
  refine ⟨fun event run k w i off hf hp hm => ?_, fun s w i off hp hm => ?_⟩
  · by_cases hreset : ∃ j, k ≤ j ∧ event j = .resetAssert
    · obtain ⟨j, hj, he⟩ := hreset
      exact ⟨j, hj, .inl he⟩
    · obtain ⟨j, hj, he, hw, hs⟩ :=
        hf.read_served (fun j hj he => hreset ⟨j, hj, he⟩) (⟨hp, hm⟩ : (run k).Waits w i off)
      refine ⟨j, hj, .inr ⟨he, hw.pos, ?_⟩⟩
      rw [hs]
      exact ⟨rfl, rfl, rfl⟩
  · rw [State.engineEvent_memRead hp]
    refine ⟨fun h => by rw [State.serveRead_blocked w i h], fun hq hr b hb => ?_, fun hq hr hb => ?_⟩
    · rw [State.serveRead_quiet w i hm hq hr, State.ringByte_written hb]
      rfl
    · rw [State.serveRead_quiet w i hm hq hr, State.ringByte_unwritten hb]
      rfl

end Sys2Proof.Machine

namespace Sys2Proof.Machine

/-! ### Host accesses and the low address bits (20_memory.md R75, R80) -/

@[simp] theorem wordOffset_wordOffset (addr : BitVec 12) : wordOffset (wordOffset addr) = wordOffset addr := by
  rw [wordOffset, wordOffset, BitVec.and_assoc, BitVec.and_self]

theorem State.hostRead_wordOffset (s : State) (addr : BitVec 12) : s.hostRead (wordOffset addr) = s.hostRead addr := by
  simp only [State.hostRead, wordOffset_wordOffset]

theorem State.hostWriteEvent_wordOffset (s : State) (addr : BitVec 12) (v : Word) :
    s.hostWriteEvent (wordOffset addr) v = s.hostWriteEvent addr v := by
  simp only [State.hostWriteEvent, State.hostWrite, wordOffset_wordOffset]

/-- Settles O23: a read is `h_rdata` alone, and both accesses look at the word offset only. -/
theorem hostReadPure : Obligations.HostReadPure :=
  ⟨fun _ _ => rfl, fun s addr v => ⟨(s.hostRead_wordOffset addr).symm, (s.hostWriteEvent_wordOffset addr v).symm⟩⟩

/-! ### The sample port's gate (40_ring_buffer.md R120, R121, R123) -/

section
variable {s : State} (accept : State)

theorem State.gateEvent_ignored (h : s.ovf = true ∨ s.fatP = true ∨ s.penP = false) : s.gateEvent accept = s := by
  rcases h with h | h | h <;> simp [State.gateEvent, h]

variable (ho : s.ovf = false) (hf : s.fatP = false) (hp : s.penP = true)
include ho hf hp

theorem State.gateEvent_accepted (hq : s.pq = []) : s.gateEvent accept = accept := by
  simp [State.gateEvent, ho, hf, hp, hq]

theorem State.gateEvent_lost (hq : s.pq ≠ []) : s.gateEvent accept = s.setPLost := by
  simp [State.gateEvent, ho, hf, hp, hq]

end

/-- P_LOST rises once; its crossing remembers the 0 it held (40_ring_buffer.md R121). -/
theorem State.setPLost_eq (s : State) :
    s.setPLost = { s with
      pLost := true, plostS := if s.pLost then s.plostS else { s.plostS with old := some false } } := by
  unfold State.setPLost
  cases h : s.pLost
  · rfl
  · rw [if_pos rfl, if_pos rfl, ← h]

/-- Settles O46: the gate's three outcomes, after the arming. -/
theorem sampleEvent : Obligations.SampleEvent := by
  refine ⟨fun s => ⟨rfl, rfl⟩, fun s v => ?_⟩
  have hx : exec (.sample v) s = .next ((s.arm false).gateEvent ((s.arm false).sampleEvent v)) := rfl
  rw [hx]
  refine ⟨fun h => ?_, fun ho hf hp hq => ?_, fun ho hf hp hq => ?_⟩
  · rw [State.gateEvent_ignored (s := s.arm false) _ h]
    rfl
  · rw [State.gateEvent_lost (s := s.arm false) _ ho hf hp hq, State.setPLost_eq]
    rfl
  · rw [State.gateEvent_accepted (s := s.arm false) _ ho hf hp hq]
    rfl

end Sys2Proof.Machine

namespace Sys2Proof

open Sys2Proof.Machine

/-- Settles O1: each word is evaluated. -/
theorem specWordsDecode : Obligations.SpecWordsDecode := by
  unfold Obligations.SpecWordsDecode
  decide

/-! ### Words and their low bits -/

/-- A field that fills the low bits of a word is what is extracted there. -/
theorem extractLsb'_setWidth_low {w n : Nat} (h : w ≤ n) (v : BitVec w) : (v.setWidth n).extractLsb' 0 w = v := by
  rw [← BitVec.setWidth_eq_extractLsb' h, BitVec.setWidth_setWidth_of_le _ h, BitVec.setWidth_eq]

/-- The words without bits above bit `w` are the `w`-bit values. -/
theorem and_not_lowMask_eq_zero_iff {w : Nat} (h : w ≤ 32) (v : Word) :
    v &&& ~~~lowMask w = 0#32 ↔ ∃ u : BitVec w, v = u.setWidth 32 := by
  constructor
  · intro hv
    refine ⟨v.extractLsb' 0 w, ?_⟩
    calc
      v = (v &&& lowMask w) ||| (v &&& ~~~lowMask w) := by
        rw [← BitVec.and_or_distrib_left, BitVec.or_not_self, BitVec.and_allOnes]
      _ = v &&& lowMask w := by rw [hv, BitVec.or_zero]
      _ = (v.extractLsb' 0 w).setWidth 32 := (setWidth_extractLsb'_low h v).symm
  · rintro ⟨u, rfl⟩
    have hu : u.setWidth 32 = u.setWidth 32 &&& lowMask w := by
      rw [← setWidth_extractLsb'_low h, extractLsb'_setWidth_low h]
    rw [hu, BitVec.and_assoc, BitVec.and_not_self]
    exact BitVec.and_zero

/-! ### What each decoder accepts -/

/-- `i` is an instruction of format `f` whose word is `w`. -/
def Instr.IsWord (i : Instr) (f : Format) (w : Word) : Prop := i.wf = true ∧ i.format = f ∧ encode i = w

/-- A byte format reads the word of a byte as that byte. -/
theorem decodeByteWith_setWidth (f : Byte → Decoded) (b : Byte) : decodeByteWith f (b.setWidth 32) = f b := by
  rw [decodeByteWith, extractLsb'_setWidth_low (by decide)]
  exact if_pos ((and_not_lowMask_eq_zero_iff (w := 8) (by decide) _).mpr ⟨b, rfl⟩)

/-- A byte format accepts only words of a byte. -/
theorem byte_of_decodeByteWith {f : Byte → Decoded} {w : Word} {i : Instr} (h : decodeByteWith f w = .instr i) :
    ∃ b : Byte, w = b.setWidth 32 ∧ f b = .instr i := by
  unfold decodeByteWith at h
  split at h
  next hw =>
    obtain ⟨b, rfl⟩ := (and_not_lowMask_eq_zero_iff (w := 8) (by decide) w).mp hw
    exact ⟨b, rfl, extractLsb'_setWidth_low (n := 32) (by decide) b ▸ h⟩
  next => cases h

/-- The producer's format reads the word of 17 bits as those bits. -/
theorem decode_pevent_setWidth (p : BitVec 17) : decode .pevent (p.setWidth 32) = .instr (decodeProducer p) := by
  rw [decode, extractLsb'_setWidth_low (by decide)]
  exact if_pos ((and_not_lowMask_eq_zero_iff (w := 17) (by decide) _).mpr ⟨p, rfl⟩)

/-- The producer's format accepts only words of 17 bits. -/
theorem producer_of_decode {w : Word} {i : Instr} (h : decode .pevent w = .instr i) :
    ∃ p : BitVec 17, w = p.setWidth 32 ∧ decodeProducer p = i := by
  simp only [decode] at h
  split at h
  next hw =>
    obtain ⟨p, rfl⟩ := (and_not_lowMask_eq_zero_iff (w := 17) (by decide) w).mp hw
    exact ⟨p, rfl, Decoded.instr.inj (extractLsb'_setWidth_low (n := 32) (by decide) p ▸ h)⟩
  next => cases h

/-- Every command word is one of an operation, NOP or a reserved one, on its bits 3:0 (30_encoding.md R105, R106). -/
theorem decodeHostOp_isWord (w : Word) : (decodeHostOp w).IsWord .hostop (w &&& 0xF#32) := by
  have hw : w &&& 0xF#32 = (w.extractLsb' 0 4).setWidth 32 :=
    (setWidth_extractLsb'_low (w := 4) (by decide) w).symm
  have key : ∀ op : BitVec 4, (decodeHostOp (op.setWidth 32)).IsWord .hostop (op.setWidth 32) := by
    unfold Instr.IsWord
    decide
  have hop : decodeHostOp w = decodeHostOp ((w.extractLsb' 0 4).setWidth 32) := by
    rw [decodeHostOp, decodeHostOp, extractLsb'_setWidth_low (by decide)]
  rw [hw, hop]
  exact key _

/-- The first bytes of the nine frames (30_encoding.md R90, R93). -/
theorem decodeCardCmd_isWord {b : Byte} {i : Instr} (h : decodeCardCmd b = .instr i) :
    i.IsWord .cardcmd (b.setWidth 32) := by
  have hb : b = (b &&& 0xC0#8) ||| (b &&& 0x3F#8) := by
    rw [← BitVec.and_or_distrib_left]
    exact BitVec.and_allOnes.symm
  unfold decodeCardCmd at h
  split at h
  next hstart =>
    rw [hb, hstart]
    split at h <;> cases h
    all_goals
      rename_i hidx
      rw [hidx]
      exact ⟨rfl, rfl, rfl⟩
  next => cases h

/-- The data tokens (30_encoding.md R100). -/
theorem decodeToken_isWord {b : Byte} {i : Instr} (h : decodeToken b = .instr i) :
    i.IsWord .token (b.setWidth 32) := by
  unfold decodeToken at h
  split at h <;> cases h <;> exact ⟨rfl, rfl, rfl⟩

/-- The data responses, which keep the whole byte (30_encoding.md R101). -/
theorem decodeDresp_isWord {b : Byte} {i : Instr} (h : decodeDresp b = .instr i) :
    i.IsWord .dresp (b.setWidth 32) := by
  unfold decodeDresp at h
  split at h <;> cases h
  all_goals
    rename_i hfield
    exact ⟨decide_eq_true hfield, rfl, rfl⟩

/-- The busy byte (30_encoding.md R102). -/
theorem decodeBusy_isWord {b : Byte} {i : Instr} (h : decodeBusy b = .instr i) : i.IsWord .busy (b.setWidth 32) := by
  unfold decodeBusy at h
  split at h <;> cases h
  next hb => exact ⟨rfl, rfl, by rw [hb]; rfl⟩

/-- The idle byte (30_encoding.md R103). -/
theorem decodeIdle_isWord {b : Byte} {i : Instr} (h : decodeIdle b = .instr i) : i.IsWord .idle (b.setWidth 32) := by
  unfold decodeIdle at h
  split at h <;> cases h
  next hb => exact ⟨rfl, rfl, by rw [hb]; rfl⟩

/-- A producer word, whose p_sample a SYNC event ignores (30_encoding.md R110). -/
theorem decodeProducer_isWord (p : BitVec 17) :
    (decodeProducer p).IsWord .pevent (if (p.setWidth 32).getLsbD 16 then 0x10000#32 else p.setWidth 32) := by
  have hbit : (p.setWidth 32).getLsbD 16 = p.getLsbD 16 := by simp
  rw [hbit, decodeProducer]
  cases hs : p.getLsbD 16 with
  | true => exact ⟨rfl, rfl, rfl⟩
  | false =>
    have hp : p.toNat < 2 ^ 16 := BitVec.toNat_lt_of_msb_false (by rw [BitVec.msb_eq_getLsbD_last]; exact hs)
    have hlow : (p.extractLsb' 0 16).setWidth 32 = p.setWidth 32 := by
      apply BitVec.eq_of_toNat_eq
      simp only [BitVec.extractLsb'_toNat, BitVec.toNat_setWidth, Nat.shiftRight_zero, Nat.mod_eq_of_lt hp]
    exact ⟨rfl, rfl, hlow⟩

/-- Settles O3: each format's decoder accepts words of its rows only. -/
theorem encodeDecode : Obligations.EncodeDecode := by
  have ofByte : ∀ {f : Format} {g : Byte → Decoded} {w : Word} {i : Instr},
      (∀ {b i}, g b = .instr i → i.IsWord f (b.setWidth 32)) → decodeByteWith g w = .instr i → i.IsWord f w := by
    intro f g w i hg h
    obtain ⟨b, rfl, hb⟩ := byte_of_decodeByteWith h
    exact hg hb
  intro f w i h
  cases f with
  | hostop => cases h; exact decodeHostOp_isWord w
  | cardcmd => exact ofByte decodeCardCmd_isWord h
  | token => exact ofByte decodeToken_isWord h
  | dresp => exact ofByte decodeDresp_isWord h
  | busy => exact ofByte decodeBusy_isWord h
  | idle => exact ofByte decodeIdle_isWord h
  | pevent =>
    obtain ⟨p, rfl, rfl⟩ := producer_of_decode h
    exact decodeProducer_isWord p

/-! ### Encoding, then decoding -/

/-- A reserved opcode is read back (30_encoding.md R106). -/
theorem decodeHostOp_reserved {op : BitVec 4} (h : 8#4 ≤ op) : decodeHostOp (op.setWidth 32) = .reservedOp op := by
  revert op
  decide

/-- A data response is read back by its low five bits (30_encoding.md R101). -/
theorem decode_dresp_setWidth (tok : Byte) : decode .dresp (tok.setWidth 32) = decodeDresp tok :=
  decodeByteWith_setWidth _ tok

/-- A sample is read back: its word has p_sync = 0 (30_encoding.md R110). -/
theorem decode_pevent_sample (v : BitVec 16) : decode .pevent (v.setWidth 32) = .instr (.sample v) := by
  have hv : v.setWidth 32 = (v.setWidth 17).setWidth 32 := (BitVec.setWidth_setWidth (by decide)).symm
  have hsync : (v.setWidth 17).getLsbD 16 = false := by simp
  rw [hv, decode_pevent_setWidth, decodeProducer, hsync, extractLsb'_setWidth_low (by decide)]
  rfl

/-- Settles O2: rows without an operand are read back by evaluation, the others by the lemma of their operand. -/
theorem decodeEncode : Obligations.DecodeEncode := by
  intro i hwf
  cases i with
  | reservedOp op => exact congrArg Decoded.instr (decodeHostOp_reserved (of_decide_eq_true hwf))
  | drespAccepted tok | drespCrcError tok | drespWriteError tok =>
    exact (decode_dresp_setWidth tok).trans (by rw [decodeDresp, drespField, of_decide_eq_true hwf]; rfl)
  | sample v => exact decode_pevent_sample v
  | _ => decide

end Sys2Proof

namespace Sys2Proof.Machine

/-! ### Gray code (30_encoding.md R112, R113) -/

/-- `gray2bin` as the rule writes it: the xor of the right shifts by 0 to `k`. -/
theorem grayPrefix_eq_foldl (k : Nat) (g : Word) :
    grayPrefix k g = ((List.range (k + 1)).map fun j => g >>> j).foldl (· ^^^ ·) 0#32 := by
  induction k with
  | zero => simp [grayPrefix]
  | succ k ih => rw [grayPrefix, ih, List.range_succ (n := k + 1)]; simp

/-- Every such xor stays in the width. -/
theorem grayPrefix_toNat_lt {w : Nat} {g : Word} (h : g.toNat < 2 ^ w) (k : Nat) : (grayPrefix k g).toNat < 2 ^ w := by
  induction k with
  | zero => exact h
  | succ k ih =>
    rw [grayPrefix, BitVec.toNat_xor, BitVec.toNat_ushiftRight]
    exact Nat.xor_lt_two_pow ih (Nat.lt_of_le_of_lt (Nat.shiftRight_le _ _) h)

/-- `bin2gray` is linear over xor. -/
theorem bin2gray_xor (a b : Word) : bin2gray (a ^^^ b) = bin2gray a ^^^ bin2gray b := by
  simp only [bin2gray, BitVec.ushiftRight_xor_distrib]
  ac_rfl

/-- `bin2gray` undoes the first shifts of `gray2bin` but for the one shift that the telescoping xor leaves. -/
theorem bin2gray_grayPrefix (k : Nat) (g : Word) : bin2gray (grayPrefix k g) = g ^^^ (g >>> (k + 1)) := by
  induction k with
  | zero => rfl
  | succ k ih =>
    have hshift : bin2gray (g >>> (k + 1)) = (g >>> (k + 1)) ^^^ (g >>> (k + 2)) := by
      rw [bin2gray, ← BitVec.shiftRight_add]
    rw [grayPrefix, bin2gray_xor, ih, hshift, BitVec.xor_assoc, ← BitVec.xor_assoc (g >>> (k + 1)), BitVec.xor_self,
      BitVec.zero_xor]

/-- A value of `w` bits has no bits from `w` up. -/
theorem ushiftRight_of_toNat_lt {w : Nat} {b : Word} (h : b.toNat < 2 ^ w) : b >>> w = 0#32 := by
  apply BitVec.eq_of_toNat_eq
  rw [BitVec.toNat_ushiftRight, Nat.shiftRight_eq_div_pow, Nat.div_eq_of_lt h]
  rfl

/-- `bin2gray` undoes `gray2bin`. -/
theorem bin2gray_gray2bin {w : Nat} {g : Word} (hw : 1 ≤ w) (hg : g.toNat < 2 ^ w) : bin2gray (gray2bin w g) = g := by
  rw [gray2bin, bin2gray_grayPrefix, Nat.sub_add_cancel hw, ushiftRight_of_toNat_lt hg, BitVec.xor_zero]

/-- The recurrence of R112: a binary bit is the gray bit against the next higher binary bit. -/
theorem gray2bin_getLsbD {w : Nat} {g : Word} (hw : 1 ≤ w) (hg : g.toNat < 2 ^ w) (i : Nat) :
    (gray2bin w g).getLsbD i = ((gray2bin w g).getLsbD (i + 1) ^^ g.getLsbD i) := by
  have hbit := congrArg (fun v : Word => v.getLsbD i) (bin2gray_gray2bin hw hg)
  simp only [bin2gray, BitVec.getLsbD_xor, BitVec.getLsbD_ushiftRight, Nat.add_comm 1 i] at hbit
  rw [← hbit]
  cases (gray2bin w g).getLsbD i <;> cases (gray2bin w g).getLsbD (i + 1) <;> rfl

/-- The top bit of R112: a gray code's top bit is its number's. -/
theorem gray2bin_getLsbD_top {w : Nat} {g : Word} (hw : 1 ≤ w) (hg : g.toNat < 2 ^ w) :
    (gray2bin w g).getLsbD (w - 1) = g.getLsbD (w - 1) := by
  have htop : (gray2bin w g).getLsbD w = false := Nat.testBit_lt_two_pow (grayPrefix_toNat_lt hg _)
  rw [gray2bin_getLsbD hw hg, Nat.sub_add_cancel hw, htop, Bool.false_xor]

/-! ### One step of a cursor changes one gray bit (30_encoding.md R113) -/

/-- A cursor and its successor differ in a run of low bits: the trailing ones and the bit they carry into, or every
bit at the wrap. -/
theorem exists_xor_succ_mod {w n : Nat} (hw : 1 ≤ w) (hn : n < 2 ^ w) :
    ∃ k, k < w ∧ n ^^^ ((n + 1) % 2 ^ w) = 2 ^ (k + 1) - 1 := by
  induction w, hw using Nat.le_induction generalizing n with
  | base => exact ⟨0, by decide, by interval_cases n <;> rfl⟩
  | succ w hw ih =>
    have hpow : 2 ^ (w + 1) = 2 * 2 ^ w := Nat.pow_succ'
    rcases Nat.even_or_odd' n with ⟨m, rfl | rfl⟩
    · have hxor : 2 * m ^^^ (2 * m + 1) = 2 * (m ^^^ m) + 1 := Nat.xor_bit false m true m
      refine ⟨0, by omega, ?_⟩
      rw [Nat.mod_eq_of_lt (by omega), hxor, Nat.xor_self]
      rfl
    · obtain ⟨k, hk, hx⟩ := ih (n := m) (by omega)
      have hnext : (2 * m + 1 + 1) % 2 ^ (w + 1) = 2 * ((m + 1) % 2 ^ w) := by
        rw [hpow, ← Nat.mul_mod_mul_left, Nat.mul_succ]
      have hxor : 2 * m + 1 ^^^ (2 * ((m + 1) % 2 ^ w)) = 2 * (m ^^^ ((m + 1) % 2 ^ w)) + 1 :=
        Nat.xor_bit true m false _
      have hpos : 0 < 2 ^ (k + 1) := Nat.two_pow_pos _
      refine ⟨k + 1, by omega, ?_⟩
      rw [hnext, hxor, hx, Nat.pow_succ' (n := k + 1)]
      omega

/-- The gray code of a run of low ones is its top bit alone. -/
theorem bin2gray_lowMask {k : Nat} (hk : k < 32) : bin2gray (lowMask (k + 1)) = BitVec.twoPow 32 k := by
  have hbit : ∀ i, (lowMask (k + 1)).getLsbD i = decide (i < k + 1) := fun i => by
    rw [BitVec.getLsbD, lowMask_toNat (by omega), Nat.testBit_two_pow_sub_one]
  ext i hi
  rw [← BitVec.getLsbD_eq_getElem, ← BitVec.getLsbD_eq_getElem, bin2gray, BitVec.getLsbD_xor,
    BitVec.getLsbD_ushiftRight, hbit, hbit, BitVec.getLsbD_twoPow, Bool.eq_iff_iff]
  simp
  omega

/-- Settles O5: `bin2gray` is linear, so one step changes the gray code of the run of bits that the cursor changes. -/
theorem grayCode : Obligations.GrayCode := by
  refine ⟨fun w hw h b hb => ⟨rfl, ?_, gray2bin_bin2gray hw hb, bin2gray_toNat_lt hb, grayPrefix_toNat_lt hb _,
    gray2bin_getLsbD_top hw hb, fun i _ => gray2bin_getLsbD hw hb i⟩, fun w hw h b hb => ?_,
    fun w hw h => ⟨?_, ?_, bin2gray_zero⟩⟩
  · rw [gray2bin, grayPrefix_eq_foldl, Nat.sub_add_cancel hw]
  · obtain ⟨k, hk, hx⟩ := exists_xor_succ_mod hw hb
    refine ⟨k, hk, ?_⟩
    have hmask : b ^^^ addMod w b 1#32 = lowMask (k + 1) := by
      apply BitVec.eq_of_toNat_eq
      rw [BitVec.toNat_xor, addMod_toNat h, lowMask_toNat (by omega)]
      exact hx
    rw [← bin2gray_xor, hmask, bin2gray_lowMask (by omega)]
  · obtain ⟨k, rfl⟩ := Nat.exists_eq_add_of_le' hw
    exact bin2gray_lowMask (by omega)
  · have hpos : 0 < 2 ^ w := Nat.two_pow_pos w
    apply BitVec.eq_of_toNat_eq
    rw [addMod_toNat h, ← lowMask, lowMask_toNat h]
    show (2 ^ w - 1 + 1) % 2 ^ w = 0
    rw [Nat.sub_add_cancel hpos, Nat.mod_self]

end Sys2Proof.Machine

namespace Sys2Proof.Machine

/-! ### Command frames (30_encoding.md R90 to R93) -/

/-- A command index makes a start byte by itself, which the forcing leaves alone (30_encoding.md R90, R91). -/
theorem forceStart_index (idx : BitVec 6) : forceStart (0x40#8 ||| idx.setWidth 8) = (0b01#2 ++ idx : BitVec 8) := by
  revert idx
  decide

/-- The forcing of the start bits, whatever byte it is given (30_encoding.md R91). -/
theorem forceStart_fields (b : Byte) :
    (forceStart b).extractLsb' 6 2 = 0b01#2 ∧ (forceStart b).extractLsb' 0 6 = b.extractLsb' 0 6 := by
  revert b
  decide

/-- The forcing of the stop bit, whatever byte it is given (30_encoding.md R91). -/
theorem forceStop_fields (b : Byte) :
    forceStop b = (b.extractLsb' 1 7 ++ 1#1 : BitVec 8) ∧ (forceStop b).getLsbD 0 = true ∧
      (forceStop b).extractLsb' 1 7 = b.extractLsb' 1 7 := by
  revert b
  decide

/-- Every CRC byte has its stop bit (30_encoding.md R92). -/
theorem crcByte_stop (literal : Bool) (idx : BitVec 6) :
    crcByte literal idx = ((crcByte literal idx).extractLsb' 1 7 ++ 1#1 : BitVec 8) := by
  unfold crcByte
  repeat' split
  all_goals decide

/-- Only CMD0 and CMD8 have a CRC byte of their own (30_encoding.md R92). -/
theorem crcByte_of_ne (literal : Bool) {idx : BitVec 6} (h0 : idx ≠ 0#6) (h8 : idx ≠ 8#6) :
    crcByte literal idx = 0x01#8 := by
  cases literal <;> simp [crcByte, h0, h8]

/-- The framing bits are already there, so the forcing changes no byte of a frame. -/
theorem frameBytes_eq (literal : Bool) (idx : BitVec 6) (arg : Word) :
    frameBytes literal idx arg =
      [ (0b01#2 ++ idx : BitVec 8), arg.extractLsb' 24 8, arg.extractLsb' 16 8, arg.extractLsb' 8 8,
        arg.extractLsb' 0 8, crcByte literal idx ] := by
  rw [frameBytes, forceStart_index, (forceStop_fields _).1, ← crcByte_stop]

/-! ### An XFER of the engine -/

section
variable {s : State} {tx : Byte} (h : s.nextTx = some tx)
include h

/-- Where the engine's next event is an XFER, a card byte is its answer. -/
theorem State.exchange_eq (r : Byte) : s.exchange r = (s.xfer tx r).received r := by
  rw [State.exchange, h]

/-- A byte the engine sends is answered by the card's next byte. -/
theorem State.send_eq : s.send = (s.answerTaken.xfer tx s.cardAnswer).received s.cardAnswer :=
  State.exchange_eq (s.answerTaken_nextTx.trans h) _

end

/-- The nine command bytes have one meaning, `State.sendCommand`. -/
theorem exec_cardCmd (c : CardCmd) (s : State) : exec c.instr s = .next (s.sendCommand c) := by
  cases c <;> rfl

/-- Byte 0 of an exchange's frame is its command byte. -/
theorem State.frameByte_zero (s : State) (x : Site) : s.frameByte x 0 = (0b01#2 ++ x.cmd.index : BitVec 8) := by
  rw [State.frameByte, State.frameOf, frameBytes_eq]
  rfl

/-- Away from an exchange with that command nothing is sent. -/
theorem State.sendCommand_of_ne {s : State} {c : CardCmd} (h : ∀ x, s.pos = .command x → x.cmd ≠ c) :
    s.sendCommand c = s := by
  unfold State.sendCommand
  split
  next x hp => rw [if_neg (h x hp)]
  next => rfl

/-- Where the engine is about to send the command byte it sends it. -/
theorem State.sendCommand_at {s : State} {x : Site} (hp : s.pos = .command x) : s.sendCommand x.cmd = s.send := by
  rw [State.sendCommand, hp]
  exact if_pos rfl

/-- Settles O29: the byte is sent at its own position and nowhere else. -/
theorem commandByteSent : Obligations.CommandByteSent := by
  refine ⟨fun s x hp => ?_, fun s c h => by rw [exec_cardCmd, State.sendCommand_of_ne h]⟩
  have htx : s.nextTx = some (0b01#2 ++ x.cmd.index : BitVec 8) := by rw [State.nextTx, hp, ← s.frameByte_zero]
  rw [exec_cardCmd, State.sendCommand_at hp, State.send_eq htx]
  simp [State.received, hp, State.goto, State.xfer]

/-! ### The polls' bytes (42_card_transport.md R165, R166, R171) -/

section
variable {s : State} {tx : Byte} (h : s.nextTx = some tx)
include h

/-- The busy byte is the answer of the engine's XFER. -/
theorem exec_busy_answer : exec .busy s = .next ((s.xfer tx 0x00#8).received 0x00#8) :=
  congrArg Host.Outcome.next (State.exchange_eq h _)

/-- The idle byte is the answer of the engine's XFER. -/
theorem exec_idle_answer : exec .idle s = .next ((s.xfer tx 0xFF#8).received 0xFF#8) :=
  congrArg Host.Outcome.next (State.exchange_eq h _)

end

section
variable {s : State} {k : BusyKind} {left : Nat}

/-- A busy poll sends filler bytes. -/
theorem State.nextTx_busyPoll (hp : s.pos = .busyPoll k left) : s.nextTx = some 0xFF#8 := by rw [State.nextTx, hp]

/-- Any byte but 0x00 ends a busy poll. -/
theorem State.xfer_notBusy (hp : s.pos = .busyPoll k left) (tx : Byte) {r : Byte} (hr : r ≠ 0x00#8) :
    (s.xfer tx r).received r = (s.xfer tx r).busyCleared k := by
  simp [State.received, hp, hr]

/-- The busy byte as the last one that the ceiling allows. -/
theorem State.xfer_busy_last (hp : s.pos = .busyPoll k 0) (tx : Byte) :
    (s.xfer tx 0x00#8).received 0x00#8 = (s.xfer tx 0x00#8).busyTimeout k := by
  simp [State.received, hp]

/-- The busy byte below the ceiling. -/
theorem State.xfer_busy_more (hp : s.pos = .busyPoll k (left + 1)) (tx : Byte) :
    (s.xfer tx 0x00#8).received 0x00#8 = (s.xfer tx 0x00#8).goto (.busyPoll k left) := by
  simp [State.received, hp]

end

/-- A segment's end needs no deselect, so its busy poll ends the operation (44_card_block_ops.md R197). -/
theorem State.busyCleared_segment (s : State) :
    s.busyCleared .segment = { s with code := .ok, done := true, pos := .idle } :=
  s.finish_not_fatal rfl

/-- Settles O38: the ceiling is reached where no further byte is allowed. -/
theorem busyByte : Obligations.BusyByte := by
  intro s k left hp
  rw [exec_busy_answer (State.nextTx_busyPoll hp)]
  cases left with
  | zero =>
    rw [State.xfer_busy_last hp]
    cases k <;> rfl
  | succ left =>
    rw [State.xfer_busy_more hp]
    rfl

/-- 0xFF ends neither response poll (42_card_transport.md R165, R166). -/
theorem Site.pollEnds_idle (x : Site) : x.pollEnds 0xFF#8 = false := by
  unfold Site.pollEnds
  cases x.pollB7 <;> decide

end Sys2Proof.Machine

/-! Two settled statements carry the names of definitions of the model, so they stand in a namespace of their own. -/
namespace Sys2Proof.Encodings

open Sys2Proof.Machine

/-- Settles O4: the frame in general, then command by command with its CRC byte in both builds. -/
theorem frameBytes : Obligations.FrameBytes := by
  refine ⟨⟨fun literal idx arg => ?_, fun b => ⟨rfl, forceStart_fields b⟩, fun b => ⟨rfl, (forceStop_fields b).2⟩⟩,
    fun s x => ?_⟩
  · rw [frameBytes_eq, ← crcByte_stop]
  · rw [State.frameOf, frameBytes_eq]
    cases x.cmd with
    | cmd0 | cmd8 =>
      simp only [CardCmd.index, CardCmd.argument]
      cases s.par.crcLiteral <;> decide
    | cmd55 | cmd58 | acmd41 =>
      rw [crcByte_of_ne s.par.crcLiteral (by decide) (by decide)]
      simp only [CardCmd.index, CardCmd.argument]
      decide
    | cmd17 | cmd24 | cmd25 | acmd23 =>
      rw [crcByte_of_ne s.par.crcLiteral (by decide) (by decide)]
      rfl

/-- Settles O39: poll by poll, and the idle clock. -/
theorem idleByte : Obligations.IdleByte := by
  intro s
  refine ⟨fun x left hp => ?_, fun x hp => ?_, fun left hp => ?_, fun left hp => ?_, fun left hp => ?_,
    fun att left hp => ?_, fun k left b rest hp hm hb => ?_⟩
  · rw [exec_idle_answer (tx := 0xFF#8) (by rw [State.nextTx, hp])]
    simp [State.received, hp, x.pollEnds_idle, State.goto]
  · rw [exec_idle_answer (tx := 0xFF#8) (by rw [State.nextTx, hp])]
    simp [State.received, hp, x.pollEnds_idle]
  · rw [exec_idle_answer (State.nextTx_busyPoll hp), State.xfer_notBusy hp _ (by decide)]
    rfl
  · rw [exec_idle_answer (State.nextTx_busyPoll hp), State.xfer_notBusy hp _ (by decide), State.busyCleared_segment]
  · rw [exec_idle_answer (State.nextTx_busyPoll hp), State.xfer_notBusy hp _ (by decide)]
    rfl
  · rw [exec_idle_answer (tx := 0xFF#8) (by rw [State.nextTx, hp])]
    simp [State.received, hp, State.goto]
  · rw [State.engineEvent_scripted (State.nextTx_busyPoll hp) hm,
      State.xfer_notBusy (s := { s with miso := rest }) hp _ hb]
    cases k with
    | block | stop => rfl
    | segment => rw [State.busyCleared_segment]

end Sys2Proof.Encodings

namespace Sys2Proof.Machine

/-! ### The tokens and filler bytes the engine sends (30_encoding.md R100, R103) -/

/-- The card port after `tx` was sent and `b`, the script's next byte, received. -/
def State.clocked (s : State) (tx b : Byte) (rest : List Byte) : State :=
  { s with miso := rest, cardTrace := .xfer s.sdCsN tx b :: s.cardTrace }

section
variable {s : State} (d : DataInv s)
include d

theorem DataInv.clocked (tx b : Byte) (rest : List Byte) : DataInv (s.clocked tx b rest) := { d with }

/-- An XFER whose answer is the script's next byte: between events the lines are idle, so it leaves its trace alone
(42_card_transport.md R159). -/
theorem DataInv.engineEvent_scripted {tx b : Byte} {rest : List Byte} (htx : s.nextTx = some tx)
    (hm : s.miso = b :: rest) : s.engineEvent = .next ((s.clocked tx b rest).received b) := by
  rw [State.engineEvent_scripted htx hm, State.xfer, ← d.mosi, ← d.sclk]
  rfl

/-- The same at a position where the card is selected. -/
theorem DataInv.engineEvent_selected (c : ControlInv s) (hcs : s.pos.csN = some false) {tx b : Byte} {rest : List Byte}
    (htx : s.nextTx = some tx) (hm : s.miso = b :: rest) :
    s.engineEvent =
      .next (({ s with miso := rest, cardTrace := .xfer false tx b :: s.cardTrace } : State).received b) := by
  rw [d.engineEvent_scripted htx hm, State.clocked, c.chipSelect false hcs]

/-- The first payload byte is asked for at TAIL itself. -/
theorem DataInv.requestRead_zero (w : WriteKind) :
    s.requestRead w 0 = { s with memReq := some s.tail, pos := .memRead w 0 } := by
  rw [State.requestRead, State.tail_add_zero d.legal d.tailB]

end

/-- Where a block write sends its token. -/
def WriteKind.tokenPos : WriteKind → Pos
  | .block => .tokenBlock
  | .segment => .tokenSegment

/-- The token of a block write (44_card_block_ops.md R197, R207). -/
def WriteKind.token : WriteKind → Byte
  | .block => 0xFE#8
  | .segment => 0xFC#8

section
variable {s : State} {w : WriteKind} (hp : s.pos = w.tokenPos)
include hp

theorem State.nextTx_token : s.nextTx = some w.token := by
  cases w <;> rw [State.nextTx, hp] <;> rfl

/-- The token is followed by the request for the first payload byte, whatever the card answers. -/
theorem State.received_token (r : Byte) : s.received r = s.requestRead w 0 := by
  cases w <;> rw [State.received, hp] <;> rfl

/-- Sending the token in any state between events. -/
theorem DataInv.send_token (d : DataInv s) :
    s.send =
      { s.answerTaken.xfer w.token s.cardAnswer with memReq := some s.tail, pos := .memRead w 0 } := by
  have hsent : (s.answerTaken.xfer w.token s.cardAnswer).tail = s.tail := by simp [State.tail]
  rw [State.send_eq (State.nextTx_token hp), State.received_token (w := w) (by simpa using hp),
    (d.answerTaken.xfer _ _).requestRead_zero, hsent]

end

/-- Settles O36: the tokens where they are sent, then the filler bytes around them. -/
theorem tokensSent : Obligations.TokensSent := by
  intro s d
  refine ⟨fun hp => ?_, fun hp => ?_, fun hp => ?_, fun b rest c hm => ?_⟩
  · have hx : exec .startBlock s = .next s.send := congrArg Host.Outcome.next (if_pos hp)
    rw [hx, d.send_token (w := .block) hp]
    rfl
  · have hx : exec .startMulti s = .next s.send := congrArg Host.Outcome.next (if_pos hp)
    rw [hx, d.send_token (w := .segment) hp]
    rfl
  · have hx : exec .stopTran s = .next s.send := congrArg Host.Outcome.next (if_pos hp)
    rw [hx, State.send_eq (tx := 0xFD#8) (by rw [State.nextTx, hp])]
    cases hk : s.cfg.stopSkip <;> simp [State.received, hp, hk, State.goto, furtherPasses]
  · refine ⟨fun hp => ?_, fun hp => ?_, fun hp => ?_⟩
    · rw [d.engineEvent_selected c (by rw [hp]; rfl) (tx := 0xFF#8) (by rw [State.nextTx, hp]) hm, State.received, hp]
      exact congrArg Host.Outcome.next (State.finish_not_fatal _ rfl)
    · rw [d.engineEvent_selected c (by rw [hp]; rfl) (tx := 0xFF#8) (by rw [State.nextTx, hp]) hm, State.received, hp]
      rfl
    · rw [d.engineEvent_selected c (by rw [hp]; rfl) (tx := 0xFF#8) (by rw [State.nextTx, hp]) hm, State.received, hp]
      rfl

/-! ### The bytes of a block on the wire (44_card_block_ops.md R197, R207) -/

/-- The ring offset of payload byte `i`, `TAIL +_N i`. -/
def State.blockOffset (s : State) (i : Nat) : Word := addMod s.par.n s.tail (BitVec.ofNat 32 i)

/-- The ring bytes at these offsets were read and sent, the card answering each with its byte of `answers`. -/
def State.ringBytesSent (s : State) (offsets : List Word) (answers rest : List Byte) : State :=
  { s with
    miso := rest, memReq := none, memReads := offsets.reverse ++ s.memReads,
    cardTrace :=
      (((offsets.map s.ringByte).zip answers).map fun p => CardEvent.xfer s.sdCsN p.1 p.2).reverse ++ s.cardTrace }

/-- A first byte, the request for the next, and then the others. -/
theorem State.ringBytesSent_cons (s : State) (w : WriteKind) (j : Nat) (p : Pos) (offset : Word) (offsets : List Word)
    (a : Byte) (answers more rest : List Byte) :
    (((s.ringBytesSent [offset] [a] more).requestRead w j).ringBytesSent offsets answers rest).goto p =
      (s.ringBytesSent (offset :: offsets) (a :: answers) rest).goto p := by
  have hmem : ((s.ringBytesSent [offset] [a] more).requestRead w j).ringByte = s.ringByte := rfl
  rw [State.ringBytesSent, hmem]
  simp [State.ringBytesSent, State.goto]

section
variable {s : State} {w : WriteKind} {i : Nat} {a : Byte} {rest : List Byte} (d : DataInv s)
  (hp : s.pos = .memRead w i) (hq : s.pq = []) (hr : s.rstP = false) (hm : s.miso = a :: rest)
include d hp hq hr hm

/-- One payload byte takes two events, the MemRead and the XFER: a quiet producer lets the pending read through. -/
theorem DataInv.engineRun_payload (k : Nat) :
    s.engineRun (k + 2) =
      (((s.ringBytesSent [s.blockOffset i] [a] rest).goto
        (.payload w i (s.ringByte (s.blockOffset i)))).received a).engineRun k := by
  have hread := State.engineEvent_memRead hp
  have dread := d.serveRead hp
  rw [State.serveRead_quiet (off := s.blockOffset i) w i (by rw [d.request, hp]; rfl) hq hr] at hread dread
  have hsent := dread.engineEvent_scripted (tx := s.ringByte (s.blockOffset i)) rfl hm
  rw [State.readServed, ← d.mport] at hread hsent
  rw [State.engineRun_succ _ hread, State.engineRun_succ _ hsent]
  rfl

/-- The last payload byte is followed by the fillers. -/
theorem DataInv.engineRun_payload_last (hi : i = 511) (k : Nat) :
    s.engineRun (k + 2) = ((s.ringBytesSent [s.blockOffset i] [a] rest).goto (.filler w 1)).engineRun k := by
  subst hi
  exact d.engineRun_payload hp hq hr hm k

/-- Every other payload byte is followed by the request for the next. -/
theorem DataInv.engineRun_payload_next (hi : i < 511) (k : Nat) :
    DataInv ((s.ringBytesSent [s.blockOffset i] [a] rest).requestRead w (i + 1)) ∧
    s.engineRun (k + 2) = ((s.ringBytesSent [s.blockOffset i] [a] rest).requestRead w (i + 1)).engineRun k := by
  refine ⟨{ d with counters := show i + 1 < 512 by omega, request := rfl }, ?_⟩
  rw [d.engineRun_payload hp hq hr hm]
  exact congrArg (State.engineRun k) (if_pos hi)

end

/-- The payload from byte `i` to byte 511, and then the fillers. -/
theorem DataInv.engineRun_payloads {w : WriteKind} {rest : List Byte} (k : Nat) (answers : List Byte) {s : State}
    {i : Nat} (d : DataInv s) (hp : s.pos = .memRead w i) (hq : s.pq = []) (hr : s.rstP = false)
    (hm : s.miso = answers ++ rest) (hi : i + answers.length = 512) :
    s.engineRun (k + 2 * answers.length) =
      ((s.ringBytesSent ((List.range' i answers.length).map s.blockOffset) answers rest).goto
        (.filler w 1)).engineRun k := by
  induction answers generalizing s i with
  | nil => exact absurd hi (Nat.ne_of_lt (d.payload_lt hp))
  | cons a more ih =>
    have hlen : k + 2 * (a :: more).length = k + 2 * more.length + 2 := by simp only [List.length_cons]; omega
    have hnext : i + 1 + more.length = 512 := by simp only [List.length_cons] at hi; omega
    rw [hlen]
    cases more with
    | nil => exact d.engineRun_payload_last hp hq hr hm (Nat.succ.inj hnext) k
    | cons b more =>
      obtain ⟨dnext, hrun⟩ := d.engineRun_payload_next hp hq hr hm
        (by simp only [List.length_cons] at hnext; omega) (k + 2 * (b :: more).length)
      rw [hrun, ih dnext rfl hq hr rfl hnext]
      exact congrArg (State.engineRun k) (s.ringBytesSent_cons w (i + 1) _ _ _ a (b :: more) (b :: more ++ rest) rest)

/-- After the payload no read is pending. -/
theorem DataInv.payloadSent {s : State} (d : DataInv s) (w : WriteKind) (offsets : List Word)
    (answers rest : List Byte) : DataInv ((s.ringBytesSent offsets answers rest).goto (.filler w 1)) :=
  { d with counters := trivial, request := rfl }

section
variable {s : State} {w : WriteKind} {left : Nat}

/-- A filler byte before the last. -/
theorem State.received_filler (hp : s.pos = .filler w (left + 1)) (r : Byte) :
    s.received r = s.goto (.filler w left) := by
  simp [State.received, hp]

/-- The last filler byte is followed by the data-response poll. -/
theorem State.received_filler_last (hp : s.pos = .filler w 0) (r : Byte) :
    s.received r = s.goto (.dresp w (s.cfg.nDresp.toNat - 1)) := by
  simp [State.received, hp, furtherPasses]

/-- The two fillers, and then the data-response poll with its ceiling. -/
theorem DataInv.engineRun_fillers {a b : Byte} {rest : List Byte} (d : DataInv s) (hp : s.pos = .filler w 1)
    (hm : s.miso = a :: b :: rest) :
    s.engineRun 2 =
      .next (((s.clocked 0xFF#8 a (b :: rest)).clocked 0xFF#8 b rest).goto (.dresp w (s.cfg.nDresp.toNat - 1))) := by
  have hfirst := d.engineEvent_scripted (tx := 0xFF#8) (by rw [State.nextTx, hp]) hm
  rw [State.received_filler (s := s.clocked _ _ _) hp] at hfirst
  have dnext : DataInv ((s.clocked 0xFF#8 a (b :: rest)).goto (.filler w 0)) :=
    (d.clocked _ _ _).goto (d.memReq_none fun _ _ h => by rw [hp] at h; cases h) trivial nofun
  have hlast := dnext.engineEvent_scripted (tx := 0xFF#8) rfl rfl
  rw [State.engineRun_succ _ hfirst, State.engineRun_succ _ hlast]
  rfl

end

/-- The 515 answers are the token's, the payload's and the fillers'. -/
theorem exists_of_length_515 {answers : List Byte} (h : answers.length = 515) :
    ∃ t data a b, answers = t :: (data ++ [a, b]) ∧ data.length = 512 := by
  obtain ⟨t, more, rfl⟩ := List.exists_cons_of_length_eq_add_one h
  have hmore : more.length = 514 := Nat.succ.inj h
  obtain ⟨a, b, hab⟩ := List.length_eq_two.mp (show (more.drop 512).length = 2 by rw [List.length_drop, hmore])
  exact ⟨t, more.take 512, a, b, by rw [← hab, List.take_append_drop], by rw [List.length_take, hmore]; rfl⟩

/-- A block's bytes on the trace: the token, the ring bytes and the fillers, each with its answer. -/
theorem State.blockSent_eq (s : State) (w : WriteKind) (p q : Pos) {offsets : List Word} {data : List Byte}
    (h : offsets.length = data.length) (token t a b : Byte) (more more' more'' rest : List Byte) :
    (((((((s.clocked token t more).requestRead w 0).ringBytesSent offsets data more').goto p).clocked 0xFF#8 a
      more'').clocked 0xFF#8 b rest).goto q) =
      { s with
        miso := rest, memReq := none, memReads := offsets.reverse ++ s.memReads,
        cardTrace := (((token :: offsets.map s.ringByte ++ [0xFF#8, 0xFF#8]).zip (t :: (data ++ [a, b]))).map
          fun p => CardEvent.xfer s.sdCsN p.1 p.2).reverse ++ s.cardTrace,
        pos := q } := by
  have hmem : ((s.clocked token t more).requestRead w 0).ringByte = s.ringByte := rfl
  have hzip : (offsets.map s.ringByte ++ [0xFF#8, 0xFF#8]).zip (data ++ [a, b]) =
      (offsets.map s.ringByte).zip data ++ [(0xFF#8, a), (0xFF#8, b)] :=
    List.zip_append (by rw [List.length_map, h])
  rw [State.ringBytesSent, hmem, List.cons_append, List.zip_cons_cons, hzip]
  simp [State.clocked, State.goto, State.requestRead]

/-- Settles O44: the token, the payload from byte 0, the two fillers. -/
theorem blockDataSent : Obligations.BlockDataSent := by
  intro s w answers rest d hq hr hlen hm hp
  obtain ⟨t, data, a, b, rfl, hdata⟩ := exists_of_length_515 hlen
  replace hp : s.pos = w.tokenPos := hp
  replace hm : s.miso = t :: (data ++ a :: b :: rest) := by simpa using hm
  have hno : s.memReq = none := d.memReq_none fun _ _ h => by cases w <;> cases hp.symm.trans h
  have htoken := d.engineEvent_scripted (State.nextTx_token hp) hm
  rw [State.received_token (s := s.clocked _ _ _) hp] at htoken
  have dfirst : DataInv ((s.clocked w.token t (data ++ a :: b :: rest)).requestRead w 0) :=
    (d.clocked _ _ _).requestRead w (by decide)
  have hpayload := dfirst.engineRun_payloads 2 data rfl hq hr rfl (by rw [hdata])
  have dpayload := dfirst.payloadSent w ((List.range' 0 512).map s.blockOffset) data (a :: b :: rest)
  rw [hdata] at hpayload
  rw [State.engineRun_succ 1026 htoken]
  refine hpayload.trans ((dpayload.engineRun_fillers rfl rfl).trans (congrArg Host.Outcome.next ?_))
  rw [State.blockSent_eq s w _ _ (by simp [hdata]), hno, List.range_eq_range']
  rfl

end Sys2Proof.Machine

namespace Sys2Proof.Machine

/-! ### A P_WRITE (40_ring_buffer.md R122, R125, R126) -/

/-- A frozen producer only empties its queue. -/
theorem State.producerWrite_frozen {s : State} (h : s.ovf = true ∨ s.fatP = true) :
    s.producerWrite = { s with pq := [] } := by
  rcases s.producerWrite_cases with ⟨hq, hw⟩ | ⟨_, _, hw⟩ | ⟨_, _, _, ho, hf, _⟩ | ⟨_, _, _, ho, hf, _⟩
  · rw [hw, ← hq]
  · exact hw
  all_goals simp [ho, hf] at h

/-- Everything a P_WRITE of a producer that is not frozen can do: HEAD moves past the byte written, onto TAIL_P or
not. -/
theorem State.producerWrite_running {s : State} {b : Byte} {rest : List Byte} (ho : s.ovf = false)
    (hf : s.fatP = false) (hq : s.pq = b :: rest) :
    (addMod s.par.n s.head 1#32 = s.tailP ∧
      s.producerWrite = { (({ s with pq := rest } : State).memWrite s.head b).advanceHead.setOvf with pq := [] }) ∨
    (addMod s.par.n s.head 1#32 ≠ s.tailP ∧
      s.producerWrite = (({ s with pq := rest } : State).memWrite s.head b).advanceHead) := by
  rcases s.producerWrite_cases with
    ⟨hn, _⟩ | ⟨_, hz, _⟩ | ⟨b', rest', hq', _, _, hw⟩ | ⟨b', rest', hq', _, _, hw⟩
  · exact absurd (hq.symm.trans hn) nofun
  · simp [ho, hf] at hz
  all_goals
    cases hq.symm.trans hq'
    simp [hw]

/-- A P_WRITE of a producer that is not frozen counts one byte more, and raises OVF where HEAD meets TAIL_P. -/
theorem State.producerWrite_counts {s : State} {b : Byte} {rest : List Byte} (ho : s.ovf = false)
    (hf : s.fatP = false) (hq : s.pq = b :: rest) :
    s.producerWrite.written = s.written + 1 ∧ s.producerWrite.freed = s.freed ∧
      (s.producerWrite.ovf = true ↔ addMod s.par.n s.head 1#32 = s.tailP) := by
  rcases State.producerWrite_running ho hf hq with ⟨hm, hw⟩ | ⟨hm, hw⟩ <;>
    simp [hw, State.written, hm, ho]

/-- OVF rises once; its crossing remembers the 0 it held (40_ring_buffer.md R125). -/
theorem State.setOvf_of_clear {s : State} (h : s.ovf = false) :
    s.setOvf = { s with ovf := true, ovfS := { s.ovfS with old := some false } } := by
  rw [State.setOvf, h]
  rfl

/-- Between events the ring memory port idles, so driving it back to idle changes nothing (20_memory.md R68). -/
theorem DataInv.portIdle {s : State} (d : DataInv s) : { s with mport := MemPort.idle } = s := by
  rw [← d.mport]

/-- Settles O48: the empty queue, the frozen producer, and the write with its two outcomes. -/
theorem producerWrite : Obligations.ProducerWrite := by
  refine fun s => ⟨fun hq => ?_, fun hz => ?_, fun b rest d ho hf hq => ?_⟩
  · rw [State.takeEvent, State.producerWrite, hq]
  · rw [State.takeEvent, State.producerWrite_frozen hz]
  · have hhead : addMod s.par.n s.head 1#32 = BitVec.ofNat 32 ((s.head.toNat + 1) % s.par.cap) :=
      addMod_one d.widths.1 s.head
    have hother : ∀ k, k ≠ s.head.toNat → Memory.read (Memory.write s.mem s.head.toNat b) k = Memory.read s.mem k :=
      fun _ => Memory.read_write_other b
    intro head'
    refine ⟨s.producerWrite, rfl, ?_⟩
    rcases State.producerWrite_running ho hf hq with ⟨hm, hw⟩ | ⟨hm, hw⟩ <;> rw [hhead] at hm <;> rw [hw]
    · rw [State.setOvf_of_clear (by simpa using ho)]
      exact ⟨Memory.read_write_same _ _ _, hother, hhead, congrArg bin2gray hhead, fun _ => ⟨rfl, rfl⟩,
        fun hne => absurd hm hne, rfl, rfl, d.portIdle⟩
    · exact ⟨Memory.read_write_same _ _ _, hother, hhead, congrArg bin2gray hhead, fun he => absurd he hm,
        fun _ => ⟨ho, rfl⟩, rfl, rfl, d.portIdle⟩

/-! ### What each side knows of the other's cursor (40_ring_buffer.md R132, R138, R139) -/

section
variable {s : State} (d : DataInv s) {hs ts : List Nat} (h : RingCounts s hs ts)
include d h

/-- PENDING is what the consumer knows to be written and has not released (40_ring_buffer.md R128). -/
theorem RingCounts.pending_toNat : s.pending.toNat = (hs.getLastD 0 - 512 * s.freed) % s.par.cap :=
  subMod_toNat_of_counts d.widths.1 (h.headC_toNat d) (h.tail_toNat d) h.released

/-- Where HEAD meets TAIL_P the ring is full, as far as the producer knows: its count is then between 1 and CAP, where
the modular test holds at CAP alone (40_ring_buffer.md R125, R139). -/
theorem RingCounts.full_iff_meets_tailP (ho : s.ovf = false) :
    s.written + 1 - 512 * ts.getLastD 0 = s.par.cap ↔ addMod s.par.n s.head 1#32 = s.tailP := by
  have hseen := h.seen_le_written
  have hfreed := h.seen_le_freed
  have hreleased := h.released
  have hroom := h.open_room ho
  refine ⟨fun hfull => h.meets_tailP d (by omega), fun hm => ?_⟩
  have hmod : 512 * ts.getLastD 0 ≡ s.written + 1 [MOD s.par.cap] := by
    rw [Nat.ModEq, ← h.tailP_toNat d, ← hm, addMod_one_of_count d.widths.1 h.head, Params.cap]
  have hdvd := (Nat.modEq_iff_dvd' (by omega)).mp hmod
  exact Nat.le_antisymm (by omega) (Nat.le_of_dvd (by omega) hdvd)

end

/-- Settles O51: PENDING as a difference of counts, against the bounds that the counts keep. -/
theorem pendingConservative : Obligations.PendingConservative := by
  intro s hs ts d h
  have hpending := h.pending_toNat d
  have hcap : 0 < s.par.cap := Nat.two_pow_pos _
  have hle := Nat.mod_le (hs.getLastD 0 - 512 * s.freed) s.par.cap
  have hseen := h.seen_le_written
  have hfreed := h.seen_le_freed
  refine ⟨hpending, ?_, ?_, by omega, fun ho => ?_, fun hb => ?_⟩
  · simp [State.blockReady, BitVec.le_def]
  · rw [hpending]
    exact Nat.mod_lt _ hcap
  · have hroom := h.open_room ho
    omega
  · have hblock := h.block_of_ready d hb
    omega

/-- Settles O49: OVF rises where HEAD meets TAIL_P, which is where the producer's count is CAP; the true count is at
most that one, since the producer knows of no more released blocks than there are. -/
theorem overflowAtCapacity : Obligations.OverflowAtCapacity := by
  intro s hs ts b rest d h ho hf hq
  have hfreed := h.seen_le_freed
  have hroom := h.open_room ho
  obtain ⟨hwritten, hsame, hraised⟩ := State.producerWrite_counts ho hf hq
  refine ⟨s.producerWrite, rfl, hwritten, ?_⟩
  rw [hwritten, hsame, hraised, ← h.full_iff_meets_tailP d ho]
  exact ⟨Iff.rfl, by omega, fun hcap => by omega⟩

/-! ### Data responses and the tail (40_ring_buffer.md R130, R131, 42_card_transport.md R172) -/

/-- Both polls accept a block on `tok[4:0] = 0x05`. -/
theorem State.drespByte_accepted (s : State) (w : WriteKind) (left : Nat) {r : Byte} (hr : r &&& 0x1F#8 = 0x05#8) :
    s.drespByte w left r = s.blockAccepted w := by
  cases w with
  | block =>
    have hidle : r ≠ idleByte := by rintro rfl; exact absurd hr (by decide)
    exact (if_pos hidle).trans (if_pos hr)
  | segment => exact if_pos hr

/-- Any other byte only moves the engine on. -/
theorem State.drespByte_rejected (s : State) (w : WriteKind) (left : Nat) {r : Byte} (hr : r &&& 0x1F#8 ≠ 0x05#8) :
    ∃ p, s.drespByte w left r = s.goto p := by
  cases w with
  | block =>
    simp only [State.drespByte, State.classify, if_neg hr]
    repeat' split
    all_goals exact ⟨_, rfl⟩
  | segment =>
    simp only [State.drespByte, if_neg hr]
    split <;> exact ⟨_, rfl⟩

section
variable {s : State} {w : WriteKind} {left : Nat} (hp : s.pos = .dresp w left)
include hp

/-- A data-response poll sends filler bytes. -/
theorem State.nextTx_dresp : s.nextTx = some 0xFF#8 := by rw [State.nextTx, hp]

theorem State.received_dresp (r : Byte) : s.received r = ({ s with lastTok := r } : State).drespByte w left r := by
  rw [State.received, hp]

/-- An accepted data response is the answer of the poll's XFER, and releases the block. -/
theorem exec_drespAccepted_dresp {tok : Byte} (ht : tok &&& 0x1F#8 = 0x05#8) :
    exec (.drespAccepted tok) s = .next (({ s.xfer 0xFF#8 tok with lastTok := tok } : State).blockAccepted w) := by
  have hx := State.exchange_eq (State.nextTx_dresp hp) tok
  rw [State.received_dresp (s := s.xfer 0xFF#8 tok) hp, State.drespByte_accepted _ w left ht] at hx
  exact congrArg Host.Outcome.next hx

end

/-- The tail index is narrower than a word. -/
theorem Params.tb_le {p : Params} (h : p.legal = true) : p.tb ≤ 32 := by
  obtain ⟨_, hn, _⟩ := (Params.legal_iff p).mp h
  unfold Params.tb
  omega

/-- Settles O40: both block writes release the block in the event of the answer. -/
theorem dataResponseAccepted : Obligations.DataResponseAccepted := by
  intro s tok left hl ht next
  have hnext : addMod s.par.tb s.tailB 1#32 = next := addMod_one (Params.tb_le hl) s.tailB
  refine ⟨fun hp => ?_, fun hp => ?_⟩ <;> rw [exec_drespAccepted_dresp hp ht, ← hnext] <;> rfl

/-- A received byte that releases no block leaves the tail alone. -/
theorem ByteAction.tailB {s t : State} (ha : ByteAction s t) (hf : t.freed = s.freed) : t.tailB = s.tailB := by
  cases ha with
  | nothing | goes | requests => rfl
  | accepts => exact absurd hf (Nat.succ_ne_self s.freed)
  | finishes c code _ => simp [State.load]

theorem State.r1Done_freed (s : State) (x : Site) (r : Byte) : (s.r1Done x r).freed = s.freed := by
  unfold State.r1Done
  repeat' split
  all_goals rfl

/-- No byte but a data response releases a block: before it the engine holds its block, elsewhere it has none. -/
theorem State.received_freed {s : State} (r : Byte) (h : ∀ w left, s.pos ≠ .dresp w left) :
    (s.received r).freed = s.freed := by
  cases hb : s.pos.holdsBlock with
  | false => exact (s.received_noBlock r hb).1
  | true =>
    cases hp : s.pos with
    | dresp w left => exact absurd hp (h w left)
    | command | gapBlock | tokenBlock | tokenSegment | select | memRead => simp [State.received, hp]
    | poll x left =>
      simp only [State.received, hp]
      repeat' split
      · exact State.r1Done_freed _ x r
      · exact State.r1Done_freed _ x r
      · rfl
    | frame x i | payload w i b =>
      simp only [State.received, hp]
      split <;> rfl
    | filler w left => cases left <;> simp [State.received, hp]
    | _ =>
      rw [hp] at hb
      cases hb

/-- What a received byte does to the tail: nothing, or a data-response poll accepts a block. -/
theorem State.received_tail (s : State) (r : Byte) :
    (s.received r).tailB = s.tailB ∨
    (∃ w left, s.pos = .dresp w left) ∧ (s.received r).lastTok &&& 0x1F#8 = 0x05#8 ∧
      (s.received r).tailB = addMod s.par.tb s.tailB 1#32 ∧
      (s.received r).tailG = bin2gray (s.received r).tailB := by
  by_cases hd : ∃ w left, s.pos = .dresp w left
  · obtain ⟨w, left, hp⟩ := hd
    rw [State.received_dresp hp]
    by_cases hr : r &&& 0x1F#8 = 0x05#8
    · rw [State.drespByte_accepted _ w left hr]
      refine .inr ⟨⟨w, left, hp⟩, ?_⟩
      cases w <;> exact ⟨hr, rfl, rfl⟩
    · obtain ⟨p, hgoes⟩ := State.drespByte_rejected { s with lastTok := r } w left hr
      rw [hgoes]
      exact .inl rfl
  · exact .inl ((s.received_action r).tailB (State.received_freed r fun w left hp => hd ⟨w, left, hp⟩))

/-- No host register write moves the tail (40_ring_buffer.md R131). -/
theorem HostAction.tailB {s t : State} (ha : HostAction s t) : t.tailB = s.tailB := by
  cases ha with
  | ctrl v => simp [State.writeCtrl]
  | _ => rfl

/-- What an event other than reset does to the tail: nothing, or it is the engine's, whose card accepts a block. -/
theorem Action.tail {s t : State} {e : Event} (ha : Action s e t) (he : e ≠ .resetAssert) :
    t.tailB = s.tailB ∨
    e = .engine ∧ (∃ w left, s.pos = .dresp w left) ∧ t.lastTok &&& 0x1F#8 = 0x05#8 ∧
      t.tailB = addMod s.par.tb s.tailB 1#32 ∧ t.tailG = bin2gray t.tailB := by
  by_cases hd : e.inProducerDomain = true
  · have hv := congrArg State.tailB (ha.consumerView hd)
    exact .inl hv
  cases ha with
  | read | releaseP | releaseC => exact .inl rfl
  | host e host t _ ha => exact .inl ha.tailB
  | xfer tx _ => simpa using State.received_tail (s.answerTaken.xfer tx s.cardAnswer) s.cardAnswer
  | internal _ =>
    have hr := s.internal_ring.1
    simp only [State.ringRegs, Prod.mk.injEq] at hr
    obtain ⟨_, _, _, htail, _⟩ := hr
    exact .inl htail
  | capture x k t hs =>
    rw [State.sync_chains hs]
    exact .inl rfl
  | blink => exact .inl (by simp)
  | reset => exact absurd rfl he
  | sync | sample | cycle | write => exact absurd rfl hd

/-- Settles O52: a step drops its event or takes it, and only one event that is taken moves the tail. -/
theorem tailMovesOnAcceptance : Obligations.TailMovesOnAcceptance := by
  intro s t hst he hmoved
  obtain ⟨hl, ⟨_, rfl⟩ | ⟨_, ha⟩⟩ := step_cases hst
  · exact absurd (by simp) hmoved
  · rcases ha.tail he with hsame | ⟨hengine, hpos, htok, htail, hgray⟩
    · exact absurd (by simpa using hsame) hmoved
    · refine ⟨hengine, by simpa using hpos, htok, ?_, hgray⟩
      rw [← addMod_one (Params.tb_le hl)]
      simpa using htail

/-! ### Synchronizer chains (40_ring_buffer.md R136, R140, 70_reset_and_hazards.md R252) -/

/-- A step of one chain within the state: the chain shifts in the source's value or the one it held before its latest
change. -/
theorem Chain.sync_map_cases {α : Type} {c : Chain α} {bitsOf : α → Word} {cur : α} {k : Capture}
    {put : Chain α → State} {t : State} (h : (c.sync bitsOf cur k).map put = some t) :
    ∃ v, t = put (c.shift v) ∧ (v = cur ∨ c.old = some v) := by
  obtain ⟨d, hd, rfl⟩ := Option.map_eq_some_iff.mp h
  obtain ⟨v, rfl, hv⟩ := Chain.sync_cases hd
  exact ⟨v, rfl, hv⟩

/-- The bit that crosses for FATAL_C (10_state.md R28). -/
theorem FatalC.isSet_eq_decide (c : FatalC) : c.isSet = decide (c ≠ .none) := by
  cases c <;> rfl

/-- Settles O54: crossing by crossing, and the two captures that are always there. -/
theorem synchronizerStep : Obligations.SynchronizerStep := by
  refine ⟨fun s x k t h => ?_, fun c cur => ⟨rfl, fun o ho => ?_⟩⟩
  · simp only [← FatalC.isSet_eq_decide]
    refine ⟨?_, ?_, ?_, ?_, ?_, ?_⟩
    all_goals
      rintro rfl
      obtain ⟨v, rfl, hv⟩ := Chain.sync_map_cases h
      exact ⟨rfl, rfl, v, rfl, hv⟩
  · simp [Chain.sync, Chain.capture, ho, Chain.shift]

/-- Some destination edges of a chain whose source stays at `cur`. -/
def Chain.syncs {α : Type} (c : Chain α) (bitsOf : α → Word) (cur : α) (captures : List Capture) :
    Option (Chain α) :=
  captures.foldlM (fun d k => d.sync bitsOf cur k) c

theorem Chain.syncs_cons {α : Type} {c d : Chain α} {bitsOf : α → Word} {cur : α} {k : Capture}
    {captures : List Capture} (h : c.syncs bitsOf cur (k :: captures) = some d) :
    ∃ c', c.sync bitsOf cur k = some c' ∧ c'.syncs bitsOf cur captures = some d := by
  simpa [Chain.syncs, Option.bind_eq_some_iff] using h

/-- The first `n` stages hold the source's value, and no edge can capture an older one. -/
structure Chain.SettledTo {α : Type} (c : Chain α) (cur : α) (n : Nat) : Prop where
  old : c.old = none
  front : ∀ v ∈ c.stages.take n, v = cur

/-- One edge settles one stage more. -/
theorem Chain.SettledTo.sync {α : Type} {c d : Chain α} {bitsOf : α → Word} {cur : α} {k : Capture} {n : Nat}
    (h : c.SettledTo cur n) (hs : c.sync bitsOf cur k = some d) : d.SettledTo cur (n + 1) := by
  obtain ⟨v, rfl, rfl | hv⟩ := Chain.sync_cases hs
  · refine ⟨rfl, fun u hu => ?_⟩
    rw [Chain.shift_stages, List.dropLast_eq_take, List.take_take] at hu
    have hfront : u ∈ v :: c.stages.take n := List.take_subset_take_left _ (Nat.min_le_left _ _) hu
    exact (List.mem_cons.mp hfront).elim id (h.front u)
  · exact absurd (h.old.symm.trans hv) nofun

/-- Edge after edge, whatever each captures. -/
theorem Chain.SettledTo.syncs {α : Type} {bitsOf : α → Word} {cur : α} {captures : List Capture} {c d : Chain α}
    {n : Nat} (h : c.SettledTo cur n) (hs : c.syncs bitsOf cur captures = some d) :
    d.SettledTo cur (n + captures.length) := by
  induction captures generalizing c n with
  | nil => cases hs; exact h
  | cons k captures ih =>
    obtain ⟨c', hk, hs⟩ := Chain.syncs_cons hs
    have hd := ih (h.sync hk) hs
    rwa [Nat.add_right_comm, Nat.add_assoc] at hd

theorem Chain.syncs_length {α : Type} {bitsOf : α → Word} {cur : α} {captures : List Capture} {c d : Chain α}
    (hs : c.syncs bitsOf cur captures = some d) : d.stages.length = c.stages.length := by
  induction captures generalizing c with
  | nil => cases hs; rfl
  | cons k captures ih =>
    obtain ⟨c', hk, hs⟩ := Chain.syncs_cons hs
    exact (ih hs).trans (Chain.sync_length hk)

/-- A chain settled as far as it is long is settled. -/
theorem Chain.SettledTo.all {α : Type} {c : Chain α} {cur : α} {n : Nat} (h : c.SettledTo cur n)
    (hn : c.stages.length ≤ n) : ∀ v ∈ c.stages, v = cur :=
  List.take_of_length_le hn ▸ h.front

/-- Settles O55: the first edge forgets the value before the change, and each edge after that settles one stage. -/
theorem synchronizerSettles : Obligations.SynchronizerSettles := by
  intro α bitsOf c c' cur captures hs hcase
  replace hs : c.syncs bitsOf cur captures = some c' := hs
  have hlen := Chain.syncs_length hs
  refine ⟨hlen, ?_⟩
  rcases hcase with hmany | ⟨hold, hmany⟩ | ⟨hold, hall⟩
  · cases captures with
    | nil => exact absurd hmany (Nat.not_succ_le_zero _)
    | cons k captures =>
      obtain ⟨d, hk, hs⟩ := Chain.syncs_cons hs
      have hd : d.SettledTo cur 0 := ⟨Chain.sync_old hk, nofun⟩
      exact (hd.syncs hs).all (by rw [hlen, Nat.zero_add]; exact Nat.le_of_succ_le_succ hmany)
  · have hc : c.SettledTo cur 0 := ⟨hold, nofun⟩
    exact (hc.syncs hs).all (by omega)
  · have hc : c.SettledTo cur c.stages.length := ⟨hold, by rwa [List.take_length]⟩
    exact (hc.syncs hs).all (by omega)

/-! ### A SYNC event (45_sample_marker.md R212, R213) -/

/-- Settles O47: the decoder looks at p_sync alone; the gate's three outcomes, the last by the arming. -/
theorem syncEvent : Obligations.SyncEvent := by
  refine ⟨fun w hw => ?_, fun s => ?_⟩
  · rw [decode_pevent_setWidth, decodeProducer, hw]
    rfl
  · have hx : exec .sync s = .next (s.gateEvent s.syncEvent) := rfl
    rw [hx]
    refine ⟨fun h => ?_, fun ho hf hp hq => ?_, fun ho hf hp hq hm => ?_, fun ho hf hp hq hm => ?_⟩
    · rw [State.gateEvent_ignored _ h]
    · rw [State.gateEvent_lost _ ho hf hp hq, State.setPLost_eq]
    · rw [State.gateEvent_accepted _ ho hf hp hq, State.syncEvent, if_pos hm]
      rfl
    · rw [State.gateEvent_accepted _ ho hf hp hq, State.syncEvent, if_neg (by simp [hm])]

end Sys2Proof.Machine

namespace Sys2Proof.Machine

/-! ### What the control invariant reads

An operation past its first line stands at a position with levels of its own: SESSION, chip-select, FAST and the
attempt number. Most events move within an exchange and leave the levels alone. -/

/-- `FAST` at a position, where the invariant speaks of it: in the idle clock and in the passes of a loop. -/
def Pos.fast : Pos → Option Bool
  | .initIdle _ _ => some false
  | p => p.pass.map Pass.fast

/-- SESSION, chip-select, FAST and INIT's attempt number at a position. -/
def Pos.levels (p : Pos) : Option Session × Option Bool × Option Bool × Option Nat :=
  (p.session, p.csN, p.fast, p.attempt)

/-- A frame is sent and answered at the levels of its command byte. -/
@[simp] theorem Pos.levels_exchange (x : Site) :
    (∀ i, (Pos.frame x i).levels = (Pos.command x).levels) ∧
    ∀ left, (Pos.poll x left).levels = (Pos.command x).levels := by
  cases x <;> exact ⟨fun _ => rfl, fun _ => rfl⟩

/-- The registers, besides the position, that the invariant speaks of while an operation runs. -/
def State.runRegs (s : State) : Session × Bool × Bool × BitVec 3 × Cfg × Bool × FatalC :=
  (s.session, s.sdCsN, s.fast, s.attempts, s.cfg, s.done, s.fatalC)

/-- An operation past its first line: the control invariant where it speaks of such a position. -/
structure State.Running (s : State) : Prop where
  session : s.pos.session = some s.session
  chipSelect : s.pos.csN = some s.sdCsN
  fast : ∀ v, s.pos.fast = some v → s.fast = v
  attempts : ∀ k, s.pos.attempt = some k → s.attempts = BitVec.ofNat 3 k ∧ 1 ≤ k ∧ k ≤ s.cfg.maxInit.toNat
  readyFast : s.session = .ready ∨ s.session = .sessionOpen → s.fast = true
  done : s.done = false
  fatalC : s.fatalC = .none

theorem Pos.session_ne_none {p : Pos} (hi : p ≠ .idle) (hb : p ≠ .initBegin) : p.session ≠ none := by
  cases p with
  | idle => exact absurd rfl hi
  | initBegin => exact absurd rfl hb
  | _ => nofun

theorem Pos.csN_ne_none {p : Pos} (h : p ≠ .idle) : p.csN ≠ none := by
  cases p with
  | idle => exact absurd rfl h
  | _ => nofun

/-- A position with an XFER is past the operation's first line. -/
theorem State.past_first_line_of_nextTx {s : State} {tx : Byte} (h : s.nextTx = some tx) :
    s.pos ≠ .idle ∧ s.pos ≠ .initBegin := by
  constructor <;> intro hp <;> simp [State.nextTx, hp] at h

/-- A running operation has not completed and has set no fatal code. -/
theorem ControlInv.not_done {s : State} (h : ControlInv s) (hi : s.pos ≠ .idle) : s.done = false ∧ s.fatalC = .none :=
  ⟨Bool.eq_false_iff.mpr fun hd => hi (h.doneIdle hd), by_contra fun hf => hi (h.fatalIdle hf)⟩

theorem ControlInv.running {s : State} (h : ControlInv s) (hi : s.pos ≠ .idle) (hb : s.pos ≠ .initBegin) :
    s.Running where
  session := by
    obtain ⟨v, hv⟩ := Option.ne_none_iff_exists'.mp (Pos.session_ne_none hi hb)
    rw [hv, h.session v hv]
  chipSelect := by
    obtain ⟨v, hv⟩ := Option.ne_none_iff_exists'.mp (Pos.csN_ne_none hi)
    rw [hv, h.chipSelect v hv]
  fast := by
    intro v hv
    unfold Pos.fast at hv
    split at hv
    next att left hp =>
      cases hv
      exact h.slowIdleClock att left hp
    next =>
      obtain ⟨p, hp, rfl⟩ := Option.map_eq_some_iff.mp hv
      exact h.passFast p hp
  attempts := h.attempts
  readyFast := h.readyFast
  done := (h.not_done hi).1
  fatalC := (h.not_done hi).2

theorem State.Running.controlInv {s : State} (h : s.Running) : ControlInv s := by
  have hi : s.pos ≠ .idle := fun hp => nomatch hp ▸ h.session
  have hb : s.pos ≠ .initBegin := fun hp => nomatch hp ▸ h.session
  exact {
    session := fun v hv => Option.some.inj (h.session.symm.trans hv)
    idleSession := fun hp => absurd hp hi
    beginSession := fun hp => absurd hp hb
    chipSelect := fun v hv => Option.some.inj (h.chipSelect.symm.trans hv)
    idleSelected := fun hp => absurd hp hi
    idleOpen := fun hp => absurd hp hi
    passFast := by
      intro p hp
      refine h.fast p.fast ?_
      unfold Pos.fast
      split
      next hq => rw [hq] at hp; cases hp
      next => rw [hp]; rfl
    slowIdleClock := fun att left hp => h.fast false (hp ▸ rfl)
    readyFast := h.readyFast
    attempts := h.attempts
    doneIdle := fun hd => absurd (h.done.symm.trans hd) nofun
    fatalIdle := fun hf => absurd h.fatalC hf }

/-- A move within an exchange: the same levels with the same registers. -/
theorem State.Running.moves {s t : State} (h : s.Running) (hr : t.runRegs = s.runRegs)
    (hl : t.pos.levels = s.pos.levels) : t.Running := by
  simp only [State.runRegs, Prod.mk.injEq] at hr
  simp only [Pos.levels, Prod.mk.injEq] at hl
  obtain ⟨hs, hc, hf, ha, hg, hd, hfc⟩ := hr
  obtain ⟨ls, lc, lf, la⟩ := hl
  exact {
    session := by rw [ls, hs, h.session]
    chipSelect := by rw [lc, hc, h.chipSelect]
    fast := by rw [lf, hf]; exact h.fast
    attempts := by rw [la, ha, hg]; exact h.attempts
    readyFast := by rw [hs, hf]; exact h.readyFast
    done := hd.trans h.done
    fatalC := hfc.trans h.fatalC }

/-- A move that drives chip-select (42_card_transport.md R163). -/
theorem State.Running.setCs {s : State} {p q : Pos} {v : Bool} (h : s.Running) (hp : s.pos = p)
    (hl : q.levels = (p.session, some v, p.fast, p.attempt)) : ((s.setCs v).goto q).Running := by
  subst hp
  simp only [Pos.levels, Prod.mk.injEq] at hl
  obtain ⟨ls, lc, lf, la⟩ := hl
  exact { h with
    session := ls.trans h.session
    chipSelect := lc
    fast := fun v hv => h.fast v (lf.symm.trans hv)
    attempts := fun k hk => h.attempts k (la.symm.trans hk) }

/-- A completion: no position is left to fit, the session is settled, and the card is selected exactly while a session
is open. -/
theorem ControlInv.finish {s : State} (c : Code) (hs : s.session ≠ .initializing)
    (hc : s.sdCsN = false ↔ s.session = .sessionOpen)
    (hf : s.session = .ready ∨ s.session = .sessionOpen → s.fast = true) : ControlInv (s.finish c) where
  session := nofun
  idleSession := fun _ => by simpa using hs
  beginSession := nofun
  chipSelect := nofun
  idleSelected := fun _ => by simpa using hc.mp
  idleOpen := fun _ ho _ => by simpa using hc.mpr (by simpa using ho)
  passFast := nofun
  slowIdleClock := nofun
  readyFast := by simpa using hf
  attempts := nofun
  doneIdle := fun _ => rfl
  fatalIdle := fun _ => rfl

end Sys2Proof.Machine

namespace Sys2Proof.Machine

/-! ### The exchanges that are left (70_reset_and_hazards.md R254) -/

/-- The XFERs that the running operation may still make. -/
def State.xfersLeft (s : State) : Nat := s.cfg.xfersLeft s.pos

/-- A ceiling is one pass and the further ones. -/
theorem toNat_eq_furtherPasses {w : Nat} {n : BitVec w} (hw : 0 < w) (h : 1#w ≤ n) :
    n.toNat = furtherPasses n + 1 := by
  have h1 : (1#w).toNat ≤ n.toNat := h
  rw [BitVec.toNat_ofNat, Nat.mod_eq_of_lt (Nat.one_lt_two_pow hw.ne')] at h1
  unfold furtherPasses
  omega

/-- Every ceiling as one pass and the further ones. -/
theorem Cfg.AtLeastMinimum.ceilings {c : Cfg} (h : c.AtLeastMinimum) :
    c.nIdle.toNat = furtherPasses c.nIdle + 1 ∧ c.nNcr.toNat = furtherPasses c.nNcr + 1 ∧
    c.nCmd0.toNat = furtherPasses c.nCmd0 + 1 ∧ c.nCmd8.toNat = furtherPasses c.nCmd8 + 1 ∧
    c.nCmd58.toNat = furtherPasses c.nCmd58 + 1 ∧ c.nCmd55.toNat = furtherPasses c.nCmd55 + 1 ∧
    c.nAcmdR1.toNat = furtherPasses c.nAcmdR1 + 1 ∧ c.nAcmd41.toNat = furtherPasses c.nAcmd41 + 1 ∧
    c.nRdtok.toNat = furtherPasses c.nRdtok + 1 ∧ c.nDresp.toNat = furtherPasses c.nDresp + 1 ∧
    c.nBusy.toNat = furtherPasses c.nBusy + 1 ∧ c.nPre.toNat = furtherPasses c.nPre + 1 :=
  ⟨toNat_eq_furtherPasses (by decide) (BitVec.le_trans (by decide : 1#8 ≤ 20#8) h.nIdle),
    toNat_eq_furtherPasses (by decide) h.nNcr, toNat_eq_furtherPasses (by decide) h.nCmd0,
    toNat_eq_furtherPasses (by decide) h.nCmd8, toNat_eq_furtherPasses (by decide) h.nCmd58,
    toNat_eq_furtherPasses (by decide) h.nCmd55, toNat_eq_furtherPasses (by decide) h.nAcmdR1,
    toNat_eq_furtherPasses (by decide) h.nAcmd41, toNat_eq_furtherPasses (by decide) h.nRdtok,
    toNat_eq_furtherPasses (by decide) h.nDresp, toNat_eq_furtherPasses (by decide) h.nBusy,
    toNat_eq_furtherPasses (by decide) h.nPre⟩

/-- The ceiling of a response poll is one iteration and the further ones. -/
theorem State.pollCeiling_eq {s : State} (h : s.cfg.AtLeastMinimum) (x : Site) :
    s.cfg.pollCeiling x = s.pollLeft x + 1 := by
  obtain ⟨_, ncr, _, _, _, _, acmdR1, _⟩ := h.ceilings
  unfold Cfg.pollCeiling State.pollLeft
  split
  · exact acmdR1
  · exact ncr

/-- What an XFER of a running operation leads to: a good state, with the bound on the XFERs left under `n`, and a
completion is recorded in DONE. -/
structure Proceeds (n : Nat) (t : State) : Prop where
  control : ControlInv t
  fewer : t.xfersLeft < n
  completed : t.pos = .idle → t.done = true

/-- A move within an exchange, with one XFER less to go. -/
theorem Proceeds.moves {s t : State} {p q : Pos} (h : s.Running) (hp : s.pos = p) (hr : t.runRegs = s.runRegs)
    (hq : t.pos = q) (hl : q.levels = p.levels) (hx : s.cfg.xfersLeft q < s.cfg.xfersLeft p) :
    Proceeds s.xfersLeft t := by
  subst hp hq
  have running := h.moves hr hl
  simp only [State.runRegs, Prod.mk.injEq] at hr
  obtain ⟨_, _, _, _, hcfg, _⟩ := hr
  exact ⟨running.controlInv, by rwa [State.xfersLeft, hcfg], fun hi => nomatch hi ▸ running.session⟩

/-- The same, once other registers are loaded. -/
theorem Proceeds.goto {s u : State} {p q : Pos} (h : s.Running) (hp : s.pos = p) (hl : q.levels = p.levels)
    (hx : s.cfg.xfersLeft q < s.cfg.xfersLeft p) (hr : u.runRegs = s.runRegs := by rfl) :
    Proceeds s.xfersLeft (u.goto q) :=
  .moves h hp hr rfl hl hx

/-- The same, with a ring byte asked for. -/
theorem Proceeds.requestRead {s : State} {p : Pos} {w : WriteKind} {i : Nat} (h : s.Running) (hp : s.pos = p)
    (hl : (Pos.memRead w i).levels = p.levels) (hx : s.cfg.xfersLeft (.memRead w i) < s.cfg.xfersLeft p) :
    Proceeds s.xfersLeft (s.requestRead w i) :=
  .moves h hp rfl rfl hl hx

theorem Proceeds.finish {s : State} (c : Code) {n : Nat} (hn : 0 < n) (hs : s.session ≠ .initializing)
    (hc : s.sdCsN = false ↔ s.session = .sessionOpen)
    (hf : s.session = .ready ∨ s.session = .sessionOpen → s.fast = true) : Proceeds n (s.finish c) where
  control := .finish c hs hc hf
  fewer := hn
  completed := fun _ => rfl

/-- A pass costs what may still follow the pass before it: of a retry loop, the one with one pass more to go; of an
ACMD, its CMD55's last one. -/
theorem Cfg.xfersLeft_select_pass (c : Cfg) :
    (∀ att left, c.xfersLeft (.select (.pass (.cmd0 att left))) = c.afterPass (.cmd0 att (left + 1))) ∧
    (∀ att left, c.xfersLeft (.select (.pass (.cmd8 att left))) = c.afterPass (.cmd8 att (left + 1))) ∧
    (∀ att left, c.xfersLeft (.select (.pass (.cmd58Pre att left))) = c.afterPass (.cmd58Pre att (left + 1))) ∧
    (∀ att outer left,
      c.xfersLeft (.select (.pass (.cmd55Init att outer left))) = c.afterPass (.cmd55Init att outer (left + 1))) ∧
    (∀ att outer, c.xfersLeft (.select (.pass (.acmd41 att outer))) = c.afterPass (.cmd55Init att outer 0)) ∧
    (∀ att left, c.xfersLeft (.select (.pass (.cmd58Post att left))) = c.afterPass (.cmd58Post att (left + 1))) ∧
    (∀ outer left,
      c.xfersLeft (.select (.pass (.cmd55Erase outer left))) = c.afterPass (.cmd55Erase outer (left + 1))) ∧
    (∀ outer, c.xfersLeft (.select (.pass (.acmd23 outer))) = c.afterPass (.cmd55Erase outer 0)) := by
  refine ⟨?_, ?_, ?_, ?_, ?_, ?_, ?_, ?_⟩ <;> intros <;>
    simp only [Cfg.xfersLeft, Cfg.pollCeiling, Site.pollB7, Site.cmd, Cfg.afterR1, Pass.hasResponse, Cfg.afterPass,
      Cfg.acmdExchange, Cfg.plainExchange, Cfg.responsePasses, Nat.succ_mul, Nat.zero_mul, if_true, Bool.false_eq_true,
      if_false] <;>
    omega

/-- INIT's passes are the passes that carry an attempt number. -/
theorem Pass.session_of_attempt {p : Pass} {att : Nat} (h : p.attempt = some att) : p.session = .initializing := by
  cases p with
  | cmd55Erase | acmd23 => cases h
  | _ => rfl

section
variable {s : State} (h : s.Running)
include h

/-- A completion with the card deselected: no session is open. -/
theorem State.Running.closes (v : Session) (c : Code) (hx : 0 < s.xfersLeft) (hcs : s.pos.csN = some true)
    (hv : v = .notInit ∨ v = .ready ∧ s.fast = true) :
    Proceeds s.xfersLeft (({ s with session := v } : State).finish c) := by
  have hcs : s.sdCsN = true := Option.some.inj (h.chipSelect.symm.trans hcs)
  rcases hv with rfl | ⟨rfl, hf⟩
  · exact .finish c hx nofun (by simp [hcs]) (by simp)
  · exact .finish c hx nofun (by simp [hcs]) fun _ => hf

/-- The same where SESSION is READY already. -/
theorem State.Running.closes_ready (c : Code) (hx : 0 < s.xfersLeft) (hcs : s.pos.csN = some true)
    (hs : s.pos.session = some .ready) : Proceeds s.xfersLeft (s.finish c) :=
  have hs : s.session = .ready := Option.some.inj (h.session.symm.trans hs)
  h.closes s.session c hx hcs (.inr ⟨hs, h.readyFast (.inl hs)⟩)

/-- A completion with the card selected: a session is open. -/
theorem State.Running.stays_open (c : Code) (hx : 0 < s.xfersLeft) (hcs : s.pos.csN = some false)
    (hs : s.pos.session = some .sessionOpen) : Proceeds s.xfersLeft (s.finish c) := by
  have hcs : s.sdCsN = false := Option.some.inj (h.chipSelect.symm.trans hcs)
  have hs : s.session = .sessionOpen := Option.some.inj (h.session.symm.trans hs)
  exact .finish c hx (by simp [hs]) (by simp [hcs, hs]) h.readyFast

section
variable {p : Pass} {ok : Bool} (hp : s.pos = .trail (.pass p ok))
include hp

/-- The next pass, at the levels of this one. -/
theorem State.Running.nextPass {q : Pass} (hl : (Pos.select (.pass q)).levels = (Pos.trail (.pass p ok)).levels)
    (hx : s.cfg.xfersLeft (.select (.pass q)) ≤ s.cfg.afterPass p) :
    Proceeds s.xfersLeft (s.goto (.select (.pass q))) :=
  .goto h hp hl (Nat.lt_one_add_iff.mpr hx)

/-- A failed attempt: the next one with its number, or NOT_INIT (43_card_init.md R173, R186). -/
theorem State.Running.attemptFailed {att : Nat} (c : Code) (ha : p.attempt = some att)
    (hx : s.cfg.laterAttempts att ≤ s.cfg.afterPass p) : Proceeds s.xfersLeft (s.attemptFailed att c) := by
  have hleft : s.cfg.laterAttempts att < s.xfersLeft := by
    rw [State.xfersLeft, hp]
    exact Nat.lt_one_add_iff.mpr hx
  have hcs : s.pos.csN = some true := by rw [hp]; rfl
  have hs : some s.session = some .initializing := by rw [← h.session, hp, ← Pass.session_of_attempt ha]; rfl
  rcases s.attemptFailed_cases att c with ⟨hlt, he⟩ | ⟨_, he⟩ <;> rw [he]
  · have running : (s.beginAttempt (att + 1)).Running := { h with
      session := hs.symm
      chipSelect := hcs.symm.trans h.chipSelect
      fast := nofun
      attempts := by
        rintro k ⟨⟩
        exact ⟨rfl, Nat.succ_pos _, hlt⟩ }
    refine ⟨running.controlInv, ?_, nofun⟩
    show (s.cfg.maxInit.toNat + 1 - (att + 1)) * s.cfg.attempt < s.xfersLeft
    rwa [Nat.add_sub_add_right]
  · exact h.closes .notInit c (by omega) hcs (.inl rfl)

/-- What follows a pass, in the order of `State.passDone`: each loop goes on, tries again or gives up. -/
theorem State.Running.passDone (hc : s.cfg.AtLeastMinimum) : Proceeds s.xfersLeft (s.passDone p ok) := by
  obtain ⟨_, _, _, cmd8, cmd58, cmd55, _, acmd41, _⟩ := hc.ceilings
  have hpos : 0 < s.xfersLeft := by rw [State.xfersLeft, hp]; exact Nat.lt_add_right _ Nat.one_pos
  have hcs : s.pos.csN = some true := by rw [hp]; rfl
  have hs : s.pos.session = some p.session := by rw [hp]; rfl
  have hfast : ∀ v, (Pos.trail (.pass p ok)).fast = some v → s.fast = v := hp ▸ h.fast
  have cost := s.cfg.xfersLeft_select_pass
  unfold State.passDone
  split
  case h_1 => exact h.nextPass hp rfl (by simp only [cost, ← cmd8, Cfg.afterPass]; omega) -- CMD0 answered
  case h_4 => exact h.nextPass hp rfl (by simp only [cost, ← cmd58, Cfg.afterPass]; omega) -- CMD8 answered
  case h_7 => -- CMD58 answered before the ACMD41 loop
    refine h.nextPass hp rfl ?_
    simp only [cost, ← cmd55, acmd41, Nat.succ_mul, Cfg.afterPass, Cfg.acmdLoop]
    omega
  case h_10 | h_19 => exact h.nextPass hp rfl (by simp only [cost, Cfg.afterPass]; omega) -- CMD55 answered
  case h_13 att outer => -- ACMD41 answered: the clock goes fast (43_card_init.md R183)
    have running : (({ s with fast := true } : State).goto
        (.select (.pass (.cmd58Post att (furtherPasses s.cfg.nCmd58))))).Running := { h with
      session := hs.symm.trans h.session
      chipSelect := hcs.symm.trans h.chipSelect
      fast := by rintro v ⟨⟩; rfl
      attempts := (hp ▸ h.attempts :)
      readyFast := fun _ => rfl }
    refine ⟨running.controlInv, ?_, nofun⟩
    rw [State.xfersLeft, State.xfersLeft, hp]
    refine Nat.lt_one_add_iff.mpr ?_
    simp only [State.goto_fields, cost, ← cmd58, Cfg.afterEpilogue, Cfg.afterPass]
    omega
  case h_14 | h_23 => -- an ACMD tried again from its CMD55
    refine h.nextPass hp rfl ?_
    simp only [cost, ← cmd55, Nat.succ_mul, Cfg.afterPass, Cfg.acmdLoop]
    omega
  case h_16 => exact h.closes .ready .ok hpos hcs (.inr ⟨rfl, hfast true rfl⟩) -- INIT ends
  case h_21 | h_22 | h_24 => exact h.closes_ready _ hpos hcs hs -- PRE_ERASE ends
  case h_2 | h_5 | h_8 | h_11 | h_17 | h_20 => -- the pass again
    exact h.nextPass hp rfl (by simp only [cost, Nat.le_refl])
  all_goals exact h.attemptFailed hp _ rfl (by simp only [Cfg.afterPass]; omega) -- the attempt failed

end

/-- What follows an EPILOGUE. -/
theorem State.Running.afterTrail {a : After} (hc : s.cfg.AtLeastMinimum) (hp : s.pos = .trail a) :
    Proceeds s.xfersLeft (s.afterTrail a) := by
  have hpos : 0 < s.xfersLeft := by rw [State.xfersLeft, hp]; exact Nat.lt_add_right _ Nat.one_pos
  have hcs : s.pos.csN = some true := by rw [hp]; rfl
  have hs : some s.session = some a.session := by rw [← h.session, hp]; rfl
  cases a with
  | pass p ok => exact h.passDone hp hc
  | finish c => exact h.closes_ready c hpos hcs (h.session.trans hs)
  | leave c => exact h.closes .ready c hpos hcs (.inr ⟨rfl, h.readyFast (.inr (Option.some.inj hs))⟩)

/-- An EPILOGUE that ends the operation. -/
theorem State.Running.deselects {p : Pos} {a : After} (hp : s.pos = p) (hl : (Pos.deselect a).levels = p.levels)
    (ha : s.cfg.afterEpilogue a = 0) (hx : 1 < s.cfg.xfersLeft p) : Proceeds s.xfersLeft (s.goto (.deselect a)) :=
  .goto h hp hl (by rw [Cfg.xfersLeft, ha]; exact hx)

/-- What follows a response poll. -/
theorem State.Running.r1Done {x : Site} {left : Nat} (hc : s.cfg.AtLeastMinimum) (hp : s.pos = .poll x left)
    (r : Byte) : Proceeds s.xfersLeft (s.r1Done x r) := by
  obtain ⟨_, _, _, _, _, _, _, _, rdtok, _⟩ := hc.ceilings
  unfold State.r1Done
  repeat' split
  all_goals
    refine .goto h hp rfl ?_
    simp only [Cfg.xfersLeft, Cfg.afterR1, Cfg.afterEpilogue, if_true, *]
    omega

/-- What follows a four-byte response. -/
theorem State.Running.respDone {p : Pass} {acc : Word} (hp : s.pos = .resp p 3 acc) (v : Word) :
    Proceeds s.xfersLeft (s.respDone p v) := by
  have hx : 1 + s.cfg.afterPass p < s.cfg.xfersLeft (.resp p 3 acc) := by
    simp only [Cfg.xfersLeft]
    omega
  cases p <;> exact .goto h hp rfl hx

/-- An accepted block: the card-busy poll follows. -/
theorem State.Running.blockAccepted {w : WriteKind} {left : Nat} (hc : s.cfg.AtLeastMinimum)
    (hp : s.pos = .dresp w left) : Proceeds s.xfersLeft (s.blockAccepted w) := by
  obtain ⟨_, _, _, _, _, _, _, _, _, _, busy, _⟩ := hc.ceilings
  have hx : furtherPasses s.cfg.nBusy + 1 + 1 < s.cfg.xfersLeft (.dresp w left) := by
    simp only [Cfg.xfersLeft]
    omega
  cases w <;> exact .goto h hp rfl hx

/-- One byte of a data-response poll. -/
theorem State.Running.drespByte {w : WriteKind} {left : Nat} (hc : s.cfg.AtLeastMinimum) (hp : s.pos = .dresp w left)
    (r : Byte) : Proceeds s.xfersLeft (s.drespByte w left r) := by
  have hx : ∀ left, 1 < s.cfg.xfersLeft (.dresp w left) := fun left => by
    simp only [Cfg.xfersLeft]
    omega
  unfold State.drespByte State.classify
  repeat' split
  · exact h.blockAccepted hc hp -- a single block's answer
  · exact h.deselects hp rfl rfl (hx _)
  · exact h.deselects hp rfl rfl (hx _)
  · exact h.deselects hp rfl rfl (hx _)
  · exact h.deselects hp rfl rfl (hx _)
  · exact .goto h hp rfl (by simp only [Cfg.xfersLeft]; omega)
  · exact h.blockAccepted hc hp -- a segment's answer
  · exact h.deselects hp rfl rfl (hx _)
  · exact .goto h hp rfl (by simp only [Cfg.xfersLeft]; omega)

/-- The end of a card-busy poll. -/
theorem State.Running.busyEnd {k : BusyKind} {left : Nat} (hp : s.pos = .busyPoll k left) :
    Proceeds s.xfersLeft (s.busyCleared k) ∧ Proceeds s.xfersLeft (s.busyTimeout k) := by
  have hx : 1 < s.cfg.xfersLeft (.busyPoll k left) := by
    simp only [Cfg.xfersLeft]
    omega
  cases k with
  | block => exact ⟨h.deselects hp rfl rfl hx, h.deselects hp rfl rfl hx⟩
  | segment =>
    refine ⟨h.stays_open .ok ?_ (by rw [hp]; rfl) (by rw [hp]; rfl), h.deselects hp rfl rfl hx⟩
    rw [State.xfersLeft, hp]
    exact Nat.zero_lt_of_lt hx
  | stop => exact ⟨h.deselects hp rfl rfl hx, h.deselects hp rfl rfl hx⟩

end

/-- Every XFER of a running operation takes it on, position by position in the order of `State.received`. -/
theorem State.Running.received {s : State} {tx : Byte} (h : s.Running) (hc : s.cfg.AtLeastMinimum)
    (hr : s.pos.inRange) (htx : s.nextTx = some tx) (r : Byte) : Proceeds s.xfersLeft (s.received r) := by
  obtain ⟨idle, _, cmd0, _, _, _, _, _, _, dresp, busy, _⟩ := hc.ceilings
  unfold State.received
  split <;> rename_i hp
  case h_2 att => -- the idle clock's last byte
    obtain ⟨cost, _⟩ := s.cfg.xfersLeft_select_pass
    refine .goto h hp rfl ?_
    rw [cost, ← cmd0]
    simp only [Cfg.xfersLeft, Cfg.afterPass]
    omega
  case h_3 x => exact .goto h hp (by simp) (by simp only [Cfg.xfersLeft]; omega) -- command byte
  case h_4 x i => -- frame byte
    obtain ⟨_, hi⟩ : 1 ≤ i ∧ i ≤ 5 := by rwa [hp] at hr
    split
    · exact .goto h hp (by simp) (by simp only [Cfg.xfersLeft]; omega)
    · exact .goto h hp (by simp) (by simp only [Cfg.xfersLeft, State.pollCeiling_eq hc]; omega)
  case h_5 x left => -- response poll
    have running : ({ s with lastR1 := r } : State).Running := { h with }
    repeat' split
    · exact running.r1Done hc hp r
    · exact running.r1Done hc hp r
    · exact .goto h hp (by simp) (by simp only [Cfg.xfersLeft]; omega)
  case h_6 p got acc => -- response bytes
    have hgot : got ≤ 3 := by rwa [hp] at hr
    split
    · exact .goto h hp rfl (by simp only [Cfg.xfersLeft]; omega)
    · obtain rfl : got = 3 := by omega
      exact h.respDone hp _
  case h_7 a => exact h.afterTrail hc hp -- trailing byte
  case h_8 left => -- token poll
    repeat' split
    · exact .goto h hp rfl (by simp only [Cfg.xfersLeft]; omega)
    · exact .goto h hp rfl (by simp only [Cfg.xfersLeft, Cfg.afterEpilogue]; omega)
    · exact .goto h hp rfl (by simp only [Cfg.xfersLeft]; omega)
  case h_9 i => -- payload byte of a read
    have hi : i < 512 := by rwa [hp] at hr
    split
    · exact .goto h hp rfl (by simp only [Cfg.xfersLeft]; omega)
    · exact .goto h hp rfl (by simp only [Cfg.xfersLeft]; omega)
  case h_11 hi => -- second CRC byte
    exact .goto h hp rfl (by simp only [Cfg.xfersLeft, Cfg.afterEpilogue]; omega)
  case h_12 => -- gap byte of a session
    have hs : some s.session = some .ready := by rw [← h.session, hp]; rfl
    have hcs : some s.sdCsN = some false := by rw [← h.chipSelect, hp]; rfl
    refine .finish _ ?_ nofun ?_ fun _ => h.readyFast (.inl (Option.some.inj hs))
    · rw [State.xfersLeft, hp]
      exact Nat.one_pos
    · simp [Option.some.inj hcs]
  case h_14 | h_15 => -- tokens
    exact .requestRead h hp rfl (by simp only [Cfg.xfersLeft, Cfg.blockTail]; omega)
  case h_16 w i b => -- payload byte of a write
    have hi : i < 512 := by rwa [hp] at hr
    split
    · exact .requestRead h hp rfl (by simp only [Cfg.xfersLeft]; omega)
    · exact .goto h hp rfl (by simp only [Cfg.xfersLeft]; omega)
  case h_19 w left => -- data response
    have running : ({ s with lastTok := r } : State).Running := { h with }
    exact running.drespByte hc hp r
  case h_20 k left => -- busy poll
    repeat' split
    · exact (h.busyEnd hp).1
    · exact (h.busyEnd hp).2
    · exact .goto h hp rfl (by simp only [Cfg.xfersLeft]; omega)
  case h_21 => -- stop token
    split
    · exact .goto h hp rfl (by simp only [Cfg.xfersLeft, if_true, *]; omega)
    · exact .goto h hp rfl (by simp only [Cfg.xfersLeft]; omega)
  case h_1 | h_10 | h_13 | h_17 | h_18 | h_22 => -- one byte further in a sequence of bytes
    exact .goto h hp rfl (by simp only [Cfg.xfersLeft]; omega)
  all_goals -- positions without an XFER
    simp only [State.nextTx, hp] at htx
    cases htx

end Sys2Proof.Machine

namespace Sys2Proof.Machine

/-! ### The halt (60_exceptions.md R227) -/

theorem State.halted_iff (s : State) : s.halted = true ↔ s.ovfSeen = true ∨ s.fatalC ≠ .none := by
  unfold State.halted State.fatal
  cases s.ovfSeen <;> cases s.fatalC <;> decide

theorem State.not_halted {s : State} (h : s.halted = false) : s.ovfSeen = false ∧ s.fatalC = .none := by
  have hn := mt s.halted_iff.mpr (Bool.eq_false_iff.mp h)
  exact ⟨by simpa using fun ho => hn (.inl ho), by_contra fun hf => hn (.inr hf)⟩

/-- A sticky flag seen at the end of its chain is set everywhere in front of it. -/
theorem Chain.Sticky.all_of_last {c : Chain Bool} {source : Bool} (h : c.Sticky source) (hl : c.last false = true) :
    source = true ∧ ∀ b ∈ c.stages, b = true := by
  rcases List.eq_nil_or_concat c.stages with hn | ⟨front, b, hc⟩
  · simp [Chain.last, hn] at hl
  · have hb : b = true := by simpa [Chain.last, hc] using hl
    have order := h.order
    rw [hc, List.concat_eq_append, ← List.cons_append] at order
    have ahead := (List.pairwise_append.mp order).2.2
    rw [hc]
    refine ⟨ahead source (by simp) b (by simp) hb, fun a ha => ?_⟩
    rcases List.mem_append.mp (List.concat_eq_append ▸ ha) with ha | ha
    · exact ahead a (by simp [ha]) b (by simp) hb
    · rwa [List.mem_singleton.mp ha]

/-- A sticky flag once seen stays seen. -/
theorem Chain.Sticky.last_sync {c d : Chain Bool} {source : Bool} {bitsOf : Bool → Word} {k : Capture}
    (h : c.Sticky source) (hs : c.sync bitsOf source k = some d) (hl : c.last false = true) : d.last false = true := by
  obtain ⟨hsource, hstages⟩ := h.all_of_last hl
  have hne : c.stages ≠ [] := by
    intro hn
    simp [Chain.last, hn] at hl
  have hold : ∀ v, c.old = some v → v = true := fun v hv => by
    obtain ⟨b, hb⟩ := List.exists_mem_of_ne_nil _ hne
    exact nomatch (hstages b hb).symm.trans ((h.old v hv).2 b hb)
  have hall := Chain.sync_forall hs hstages hold hsource
  have hne : d.stages ≠ [] := by
    rw [← List.length_pos_iff, Chain.sync_length hs, List.length_pos_iff]
    exact hne
  rw [Chain.last, List.getLastD_eq_getLast?, List.getLast?_eq_getLast_of_ne_nil hne]
  exact hall _ (List.getLast_mem hne)

/-- A halted block stays halted at a synchronizer step. -/
theorem DataInv.halted_sync {s t : State} {x : Crossing} {k : Capture} (d : DataInv s) (hs : s.sync x k = some t)
    (h : s.halted = true) : t.halted = true := by
  rw [State.halted_iff] at h ⊢
  rcases State.sync_cases hs with
    ⟨c, _, _, rfl⟩ | ⟨c, _, _, rfl⟩ | ⟨c, _, _, rfl⟩ | ⟨c, _, _, rfl⟩ | ⟨c, _, hc, rfl⟩ | ⟨c, _, _, rfl⟩
  case inr.inr.inr.inr.inl => exact h.imp_left (d.ovfSticky.last_sync hc)
  all_goals exact h

/-! ### The control invariant, event by event -/

/-- What the control invariant reads of a state. -/
def State.controlRegs (s : State) : Pos × Bool × Session × Bool × Bool × BitVec 3 × Cfg × Bool × FatalC :=
  (s.pos, s.halted, s.runRegs)

theorem ControlInv.congr {s t : State} (h : ControlInv s) (ht : t.controlRegs = s.controlRegs) : ControlInv t := by
  simp only [State.controlRegs, State.runRegs, Prod.mk.injEq] at ht
  obtain ⟨hp, hh, hs, hc, hf, ha, hg, hd, hfc⟩ := ht
  exact {
    session := by rw [hp, hs]; exact h.session
    idleSession := by rw [hp, hs]; exact h.idleSession
    beginSession := by rw [hp, hs]; exact h.beginSession
    chipSelect := by rw [hp, hc]; exact h.chipSelect
    idleSelected := by rw [hp, hs, hc]; exact h.idleSelected
    idleOpen := by rw [hp, hs, hc, hh]; exact h.idleOpen
    passFast := by rw [hp, hf]; exact h.passFast
    slowIdleClock := by rw [hp, hf]; exact h.slowIdleClock
    readyFast := by rw [hs, hf]; exact h.readyFast
    attempts := by rw [hp, ha, hg]; exact h.attempts
    doneIdle := by rw [hp, hd]; exact h.doneIdle
    fatalIdle := by rw [hp, hfc]; exact h.fatalIdle }

/-- The operations that need READY, need an open session, or need neither (41_host_commands.md R148). -/
theorem Session.needReady_eq_none (v : Session) : v.needReady = none ↔ v = .ready := by cases v <;> decide

theorem Session.needOpen_eq_none (v : Session) : v.needOpen = none ↔ v = .sessionOpen := by cases v <;> decide

theorem Session.needClosed_eq_none (v : Session) : v.needClosed = none ↔ v = .notInit ∨ v = .ready := by
  cases v <;> decide

/-- An operation whose checks pass finds SESSION as its first position has it. -/
theorem State.firstPos_session {s : State} {op : HostOp} (hop : op ≠ .init) (hp : s.precheck op = none) :
    (s.firstPos op).session = some s.session := by
  cases op with
  | init => exact absurd rfl hop
  | readBlock | beginSession | preErase => rw [(Session.needReady_eq_none _).mp hp]; rfl
  | writeBlock => rw [(Session.needReady_eq_none _).mp (Option.or_eq_none_iff.mp hp).1]; rfl
  | writeSegment => rw [(Session.needOpen_eq_none _).mp (Option.or_eq_none_iff.mp hp).1]; rfl
  | endSession => rw [(Session.needOpen_eq_none _).mp hp]; rfl

section
variable {s : State} (h : ControlInv s)
include h

/-- Every XFER, with the card's next answer. -/
theorem ControlInv.xfer (d : DataInv s) {tx : Byte} (htx : s.nextTx = some tx) :
    Proceeds s.xfersLeft ((s.answerTaken.xfer tx s.cardAnswer).received s.cardAnswer) := by
  obtain ⟨hi, hb⟩ := State.past_first_line_of_nextTx htx
  have dx := d.answerTaken.xfer tx s.cardAnswer
  have running : (s.answerTaken.xfer tx s.cardAnswer).Running :=
    (h.running hi hb).moves (by simp [State.runRegs]) (by simp)
  have hleft : (s.answerTaken.xfer tx s.cardAnswer).xfersLeft = s.xfersLeft := by simp [State.xfersLeft]
  rw [← hleft]
  exact running.received dx.ceilings dx.counters (s.answerTaken_nextTx.trans htx) s.cardAnswer

/-- Every engine event that is no XFER. -/
theorem ControlInv.internal (d : DataInv s) : ControlInv s.internal := by
  have running : s.pos.session ≠ none → s.Running := fun hp =>
    h.running (fun hi => hp (hi ▸ rfl)) (fun hi => hp (hi ▸ rfl))
  rcases s.internal_cases with
    ⟨hi, _⟩ | ⟨hp, hh, _, hi⟩ | ⟨hp, hi⟩ | ⟨att, hp, hi⟩ | ⟨x, hp, hi⟩ | ⟨a, hp, hi⟩ | ⟨w, i, hp, hi⟩ <;> rw [hi]
  · exact h
  · exact { h with -- the halted block deselects the card
      chipSelect := fun v hv => nomatch (hp ▸ hv :)
      idleSelected := nofun
      idleOpen := fun _ _ hn => absurd (hh.symm.trans hn) nofun }
  · obtain ⟨hd, hf⟩ := h.not_done (hp ▸ nofun) -- INIT's first attempt begins
    exact State.Running.controlInv {
      session := rfl
      chipSelect := congrArg some (h.chipSelect true (hp ▸ rfl)).symm
      fast := nofun
      attempts := by rintro k ⟨⟩; exact ⟨rfl, Nat.le_refl 1, d.ceilings.maxInit⟩
      readyFast := nofun
      done := hd
      fatalC := hf }
  · have hr := running (hp ▸ nofun) -- the idle clock begins, at the slow rate
    have hs : some Session.initializing = some s.session := by rw [← hr.session, hp]; rfl
    exact State.Running.controlInv { hr with
      session := hs
      chipSelect := rfl
      fast := by rintro v ⟨⟩; rfl
      attempts := (hp ▸ hr.attempts :)
      readyFast := by rw [← Option.some.inj hs]; nofun }
  · exact ((running (hp ▸ nofun)).setCs hp (by cases x <;> rfl)).controlInv
  · exact ((running (hp ▸ nofun)).setCs hp (by cases a <;> rfl)).controlInv
  · rcases s.serveRead_cases w i with hs | ⟨off, _, _, _, hs⟩ <;> rw [hs]
    · exact h
    · refine State.Running.controlInv ((running (hp ▸ nofun)).moves rfl ?_)
      rw [hp]
      rfl

/-- An operation starts where its first position fits: an idle block that is not halted has the card selected exactly
while a session is open. -/
theorem ControlInv.start {op : HostOp} (hb : s.isBusy = false) (hh : s.halted = false) (hp : s.precheck op = none) :
    ControlInv (s.start op) := by
  have hi := s.isBusy_false_iff.mp hb
  have hf := (State.not_halted hh).2
  have closed : s.session ≠ .sessionOpen → s.sdCsN = true := fun hs =>
    Bool.eq_true_of_not_eq_false fun hc => hs (h.idleSelected hi hc)
  by_cases hop : op = .init
  · subst hop
    have hs := (Session.needClosed_eq_none _).mp hp
    exact { h with
      session := nofun
      idleSession := nofun
      beginSession := fun _ => hs
      chipSelect := by rintro v ⟨⟩; exact closed (by rcases hs with hs | hs <;> rw [hs] <;> nofun)
      idleSelected := nofun
      idleOpen := nofun
      passFast := nofun
      slowIdleClock := nofun
      attempts := nofun
      doneIdle := nofun
      fatalIdle := fun hn => absurd hf hn }
  · have hs := State.firstPos_session hop hp
    have ready : (s.firstPos op).session = some .ready → s.session = .ready := fun hr =>
      Option.some.inj (hs.symm.trans hr)
    refine State.Running.controlInv {
      session := hs
      chipSelect := ?_
      fast := ?_
      attempts := ?_
      readyFast := h.readyFast
      done := rfl
      fatalC := hf }
    · cases op with
      | init => exact absurd rfl hop
      | writeSegment | endSession => exact congrArg some (h.idleOpen hi (Option.some.inj hs).symm hh).symm
      | readBlock | writeBlock | beginSession | preErase =>
        exact congrArg some (closed (by rw [ready rfl]; nofun)).symm
    · cases op with
      | preErase => rintro v ⟨⟩; exact h.readyFast (.inl (ready rfl))
      | _ => nofun
    · cases op <;> nofun

theorem ControlInv.hostAction {t : State} (ha : HostAction s t) : ControlInv t := by
  cases ha with
  | nothing => exact h
  | lost _ => exact { h with }
  | completed c hb => exact { h with doneIdle := fun _ => s.isBusy_false_iff.mp hb }
  | started op hb hh hp => exact h.start hb hh hp
  | ctrl v =>
    rw [s.writeCtrl_eq]
    exact { h with }
  | status v => exact { h with doneIdle := fun hd => h.doneIdle (Bool.and_eq_true _ _ ▸ hd).1 }
  | arg v _ => exact { h with }
  | cfg a v c hb _ => exact { h with attempts := by rw [s.isBusy_false_iff.mp hb]; nofun }

theorem ControlInv.blinkEdge : ControlInv s.blinkEdge := by
  unfold State.blinkEdge
  split <;> exact { h with }

theorem ControlInv.eventTaken : ControlInv s.eventTaken := by
  unfold State.eventTaken
  split <;> exact { h with }

theorem ControlInv.sync (d : DataInv s) {t : State} {x : Crossing} {k : Capture} (hs : s.sync x k = some t) :
    ControlInv t := by
  have ht := State.sync_chains hs
  rw [ht]
  exact { h with
    idleOpen := fun hp ho hn => h.idleOpen hp ho <| Bool.eq_false_iff.mpr fun hh =>
      nomatch (d.halted_sync hs hh).symm.trans ((congrArg State.halted ht).trans hn) }

end

/-- Every build meets the invariant right after reset (70_reset_and_hazards.md R240). -/
theorem State.resetWith_controlInv (p : Params) : ControlInv (State.resetWith p) where
  session := nofun
  idleSession := nofun
  beginSession := nofun
  chipSelect := nofun
  idleSelected := nofun
  idleOpen := nofun
  passFast := nofun
  slowIdleClock := nofun
  readyFast := nofun
  attempts := nofun
  doneIdle := fun _ => rfl
  fatalIdle := fun _ => rfl

/-- Every event that its domain takes keeps the invariant. -/
theorem ControlInv.action {s t : State} {e : Event} (d : DataInv s) (h : ControlInv s) (ha : Action s e t) :
    ControlInv t := by
  by_cases hd : e.inProducerDomain = true
  · have hv := congrArg State.controlRegs (ha.consumerView hd)
    exact h.congr hv
  cases ha with
  | read e host w _ => exact { h with }
  | host e host t _ ha =>
    have hh : ControlInv { s with host := host } := { h with }
    exact hh.hostAction ha
  | xfer tx htx => exact (h.xfer d htx).control
  | internal _ => exact h.internal d
  | capture x k t hs => exact h.sync d hs
  | blink => exact h.blinkEdge
  | reset => exact { State.resetWith_controlInv s.par with }
  | releaseP | releaseC => exact { h with }
  | sync | sample | cycle | write => exact absurd rfl hd

/-- Settles O57: a step drops its event or takes it, and no event that is taken breaks the invariant. -/
theorem controlInvKept : Obligations.ControlInvKept := by
  intro s t d h hs
  obtain ⟨_, ⟨_, rfl⟩ | ⟨_, ha⟩⟩ := step_cases hs
  · exact h.eventTaken
  · exact h.eventTaken.action d.eventTaken ha

end Sys2Proof.Machine

namespace Sys2Proof.Machine

/-! ### A running operation completes (41_host_commands.md R151, 70_reset_and_hazards.md R254) -/

/-- Between two XFERs lie at most two other events. -/
theorem Pos.eventsBeforeXfer_le_two (p : Pos) : p.eventsBeforeXfer ≤ 2 := by
  unfold Pos.eventsBeforeXfer
  split <;> decide

/-- The idle clock begins an attempt: what an attempt may cost, and the attempts after it. -/
theorem Cfg.xfersLeft_initIdle {c : Cfg} (hc : c.AtLeastMinimum) {att : Nat} (ha : att ≤ c.maxInit.toNat) :
    c.xfersLeft (.initIdle att (furtherPasses c.nIdle)) = c.xfersLeft (.initDeselect att) := by
  obtain ⟨idle, _⟩ := hc.ceilings
  simp only [Cfg.xfersLeft, Nat.succ_sub ha, Nat.succ_mul, Cfg.laterAttempts, Cfg.attempt, idle]
  omega

/-- An XFER lowers the rank, whatever other events come before the next one. -/
theorem State.rank_lt {s t : State} (h : t.xfersLeft < s.xfersLeft) : t.rank < s.rank := by
  have := t.pos.eventsBeforeXfer_le_two
  unfold State.xfersLeft at h
  unfold State.rank
  omega

/-- With the producer quiet, an engine event that is no XFER comes one event nearer to the next one. -/
theorem DataInv.internal_nearer {s : State} (d : DataInv s) (hi : s.pos ≠ .idle) (hn : s.nextTx = none) (hq : s.Quiet) :
    s.pos.eventsBeforeXfer = s.internal.pos.eventsBeforeXfer + 1 ∧ s.internal.pos ≠ .idle := by
  rcases s.internal_cases with
    ⟨_, hp | hx⟩ | ⟨hp, _⟩ | ⟨hp, he⟩ | ⟨att, hp, he⟩ | ⟨x, hp, he⟩ | ⟨a, hp, he⟩ | ⟨w, i, hp, he⟩
  case inl.inl | inr.inl => exact absurd hp hi
  case inl.inr => exact absurd hn hx
  case inr.inr.inr.inr.inr.inr => -- the arbiter serves the read
    have hreq : s.memReq = some _ := d.request.trans (by rw [hp]; rfl)
    rw [he, State.serveRead_quiet w i hreq hq.pq hq.rstP, hp]
    exact ⟨rfl, nofun⟩
  all_goals
    rw [he, hp]
    exact ⟨rfl, nofun⟩

section
variable {s : State} (h : ControlInv s) (d : DataInv s)
include h d

/-- An engine event that is no XFER spends none. -/
theorem ControlInv.internal_xfersLeft : s.internal.xfersLeft = s.xfersLeft := by
  have hcfg : s.internal.cfg = s.cfg := by simp
  rw [State.xfersLeft, State.xfersLeft, hcfg]
  rcases s.internal_cases with
    ⟨hi, _⟩ | ⟨hp, _, _, hi⟩ | ⟨hp, hi⟩ | ⟨att, hp, hi⟩ | ⟨x, hp, hi⟩ | ⟨a, hp, hi⟩ | ⟨w, i, hp, hi⟩ <;> rw [hi]
  case inr.inr.inr.inl => -- an attempt's idle clock
    obtain ⟨_, _, hle⟩ := h.attempts att (by rw [hp]; rfl)
    rw [hp]
    exact Cfg.xfersLeft_initIdle d.ceilings hle
  case inr.inr.inr.inr.inr.inr => -- a ring read, waiting or served
    rcases s.serveRead_cases w i with hs | ⟨off, _, _, _, hs⟩
    · rw [hs]
    · rw [hs, hp]
      rfl
  case inl => rfl
  all_goals
    rw [hp]
    rfl

/-- Every engine event of a running operation lowers the rank, or completes the operation. -/
theorem ControlInv.engineEvent (hi : s.pos ≠ .idle) (hq : s.Quiet) :
    ∃ t, s.engineEvent = .next t ∧ t.rank < s.rank ∧ (t.pos = .idle → t.done = true) := by
  rcases s.engineEvent_cases with ⟨hn, he⟩ | ⟨tx, htx, he⟩
  · obtain ⟨hnear, hbusy⟩ := d.internal_nearer hi hn hq
    have hx := h.internal_xfersLeft d
    refine ⟨_, he, ?_, fun hp => absurd hp hbusy⟩
    unfold State.xfersLeft at hx
    unfold State.rank
    omega
  · have hp := h.xfer d htx
    exact ⟨_, he, State.rank_lt hp.fewer, hp.completed⟩

end

/-- The engine alone brings a running operation to its completion, in at most `rank` events. -/
theorem ControlInv.terminates {n : Nat} {s : State} (hn : s.rank ≤ n) (h : ControlInv s) (d : DataInv s)
    (hi : s.pos ≠ .idle) (hq : s.Quiet) :
    ∃ k t, k ≤ s.rank ∧ s.engineRun k = .next t ∧ t.pos = .idle ∧ t.done = true := by
  induction n generalizing s with
  | zero =>
    obtain ⟨t, _, hlt, _⟩ := h.engineEvent d hi hq
    omega
  | succ n ih =>
    obtain ⟨t, he, hlt, hdone⟩ := h.engineEvent d hi hq
    have ha : Action s .engine t := State.takeEvent_action he
    by_cases ht : t.pos = .idle
    · exact ⟨1, t, by omega, State.engineRun_succ 0 he, ht, hdone ht⟩
    · have hq' : t.Quiet := ha.quiet nofun nofun nofun hq
      obtain ⟨k, u, hk, hrun, hu⟩ := ih (by omega) (h.action d ha) (d.action ha) ht hq'
      exact ⟨k + 1, u, by omega, (State.engineRun_succ k he).trans hrun, hu⟩

/-- Settles O60: the rank falls with every event until the engine is idle. -/
theorem operationTerminates : Obligations.OperationTerminates := by
  intro s d h hb hq hr
  obtain ⟨k, t, hk, hrun, hi, hd⟩ := h.terminates (Nat.le_refl _) d (s.isBusy_iff.mp hb) ⟨hq, hr⟩
  exact ⟨k, t, hk, hrun, t.isBusy_false_iff.mpr hi, hd⟩

end Sys2Proof.Machine

namespace Sys2Proof.Machine

/-! ### Host command words (41_host_commands.md R143 to R157) -/

/-- Every command word but NOP is checked in the order of 41_host_commands.md R143. -/
theorem exec_commandWrite {i : Instr} (hf : i.format = .hostop) (hn : i ≠ .nop) (s : State) :
    ∃ rest, exec i s = .next (s.commandWrite rest) := by
  cases i with
  | nop => exact absurd rfl hn
  | init | readBlock | writeBlock | beginSession | writeSegment | endSession | preErase | reservedOp =>
    exact ⟨_, rfl⟩
  | _ => cases hf

/-- The command words of the operations have one meaning, `State.issue`. -/
theorem exec_hostOp (op : HostOp) (s : State) : exec op.instr s = .next (s.issue op) := by
  cases op <;> rfl

section
variable {s : State}

theorem State.commandWrite_busy (hb : s.isBusy = true) (rest : State) :
    s.commandWrite rest = { s with cmdLost := true } := if_pos hb

section
variable (hb : s.isBusy = false)
include hb

theorem State.commandWrite_halted (hf : s.fatal ≠ 0#2) (rest : State) :
    s.commandWrite rest = { s with code := .eHalted, done := true } := by
  rw [State.commandWrite, hb, s.halted_eq, if_neg Bool.false_ne_true, if_pos (bne_iff_ne.mpr hf)]
  rfl

variable (hf : s.fatal = 0#2)
include hf

theorem State.commandWrite_passes (rest : State) : s.commandWrite rest = rest := by
  rw [State.commandWrite, hb, s.halted_eq, hf]
  rfl

/-- An operation whose checks fail completes at once. -/
theorem exec_refused {op : HostOp} {c : Code} (hp : s.precheck op = some c) :
    exec op.instr s = .next { s with code := c, done := true } := by
  rw [exec_hostOp, State.issue, State.commandWrite_passes hb hf, State.checkAndStart, hp]
  rfl

/-- The same for several operations that fail alike. -/
theorem exec_refused_all {ops : List HostOp} {c : Code} (hp : ∀ op ∈ ops, s.precheck op = some c) :
    ∀ i ∈ ops.map HostOp.instr, exec i s = .next { s with code := c, done := true } :=
  List.forall_mem_map.mpr fun op ho => exec_refused hb hf (hp op ho)

/-- An operation whose checks pass starts. -/
theorem exec_started {op : HostOp} (hp : s.precheck op = none) : exec op.instr s = .next (s.start op) := by
  rw [exec_hostOp, State.issue, State.commandWrite_passes hb hf, State.checkAndStart, hp]

end

theorem State.needBlock_of_lt (h : s.pending < 512#32) : s.needBlock = some .eNoBlock := by
  rw [State.needBlock, State.blockReady, decide_eq_false (BitVec.not_le.mpr h)]
  rfl

theorem State.needBlock_of_le (h : 512#32 ≤ s.pending) : s.needBlock = none := by
  rw [State.needBlock, State.blockReady, decide_eq_true h]
  rfl

end

/-- Settles O10: NOP has no case, and the decoder looks at bits 3:0 alone. -/
theorem nopChangesNothing : Obligations.NopChangesNothing := by
  refine ⟨fun s => rfl, fun w hw => ?_⟩
  rw [decode, decodeHostOp, hw]
  rfl

/-- Settles O11: the command write's three cases, with E_BAD_OP behind them; the example is evaluated. -/
theorem reservedOpcode : Obligations.ReservedOpcode := by
  refine ⟨fun w hw => ?_, fun s op _ => ?_, _, rfl, rfl, rfl, by decide⟩
  · rw [decode, ← decodeHostOp_reserved hw, decodeHostOp, decodeHostOp, extractLsb'_setWidth_low (by decide)]
  · have hx : exec (.reservedOp op) s = .next (s.commandWrite (s.completeNow .eBadOp)) := rfl
    rw [hx]
    refine ⟨fun hb hf => ?_, fun hb => ?_, fun hb hf => ?_⟩
    · rw [State.commandWrite_passes hb hf]
      rfl
    · rw [State.commandWrite_busy hb]
    · rw [State.commandWrite_halted hb hf]

/-- Settles O12: both are the command write's own checks, before the word's. -/
theorem commandTurnedAway : Obligations.CommandTurnedAway := by
  refine ⟨fun i s hi hn hb => ?_, fun i s hi hn hb hf => ?_⟩ <;> obtain ⟨rest, hx⟩ := exec_commandWrite hi hn s
  · rw [hx, State.commandWrite_busy hb]
  · rw [hx, State.commandWrite_halted hb hf]

/-- Settles O13: PRECHECK in each SESSION. -/
theorem precheckErrors : Obligations.PrecheckErrors := by
  intro s hb hf
  refine ⟨fun hs => ⟨?_, ?_⟩, fun hs => ⟨?_, fun hp => ?_⟩, fun hs => ⟨?_, fun hp => ?_⟩⟩
  · exact exec_refused_all (ops := [.readBlock, .writeBlock, .beginSession, .preErase]) hb hf
      (by simp [State.precheck, hs, Session.needReady])
  · exact exec_refused_all (ops := [.writeSegment, .endSession]) hb hf (by simp [State.precheck, hs, Session.needOpen])
  · exact exec_refused_all (ops := [.writeSegment, .endSession]) hb hf (by simp [State.precheck, hs, Session.needOpen])
  · refine exec_refused (op := .writeBlock) hb hf ?_
    rw [State.precheck, hs, State.needBlock_of_lt hp]
    rfl
  · exact exec_refused_all (ops := [.init, .readBlock, .writeBlock, .beginSession, .preErase]) hb hf
      (by simp [State.precheck, hs, Session.needReady, Session.needClosed])
  · refine exec_refused (op := .writeSegment) hb hf ?_
    rw [State.precheck, hs, State.needBlock_of_lt hp]
    rfl

/-- Settles O14: PRECHECK passes, and START goes to the operation's first position. -/
theorem operationStarts : Obligations.OperationStarts := by
  intro s hb hf
  refine ⟨fun p hp => State.isBusy_iff _ |>.mpr hp, fun hs => ?_, fun hs => ?_, fun hs => ?_⟩
  · exact exec_started (op := .init) hb hf ((Session.needClosed_eq_none _).mpr hs)
  · have hn := (Session.needReady_eq_none _).mpr hs
    refine ⟨exec_started (op := .readBlock) hb hf hn, exec_started (op := .beginSession) hb hf hn,
      exec_started (op := .preErase) hb hf hn, fun hp => exec_started (op := .writeBlock) hb hf ?_⟩
    exact Option.or_eq_none_iff.mpr ⟨hn, State.needBlock_of_le hp⟩
  · have hn := (Session.needOpen_eq_none _).mpr hs
    refine ⟨exec_started (op := .endSession) hb hf hn, fun hp => exec_started (op := .writeSegment) hb hf ?_⟩
    exact Option.or_eq_none_iff.mpr ⟨hn, State.needBlock_of_le hp⟩

/-! ### Completion (41_host_commands.md R150, 60_exceptions.md R223) -/

/-- FATAL_C after FATAL_UPDATE: the first fatal class stays. -/
theorem State.fatalUpdate_fatalC (s : State) (c : Code) :
    (s.fatalUpdate c).fatalC = if s.fatalC ≠ .none then s.fatalC else c.fatalClass := by
  unfold State.fatalUpdate
  cases hs : s.fatalC <;> cases hc : c.fatalClass <;> simp [FatalC.isSet, hs]

/-- Settles O16: a completion is FATAL_UPDATE, which writes FATAL_C and its crossing alone, and three registers. -/
theorem completionRecords : Obligations.CompletionRecords := by
  intro s c
  refine ⟨rfl, rfl, rfl, s.fatalUpdate_fatalC c, s.fatalUpdate_fatS_stages c, ?_⟩
  rw [State.finish]
  rcases s.fatalUpdate_cases c with h | ⟨_, _, h⟩
  · rw [h]
  · rw [h]
    rfl

/-! ### Bytes where no XFER is pending (41_host_commands.md R155) -/

section
variable {s : State} (h : s.nextTx = none)
include h

theorem State.exchange_none (r : Byte) : s.exchange r = s := by rw [State.exchange, h]

/-- No token is sent there either. -/
theorem State.not_at_token : s.pos ≠ .tokenBlock ∧ s.pos ≠ .tokenSegment ∧ s.pos ≠ .tokenStop := by
  refine ⟨fun hp => ?_, fun hp => ?_, fun hp => ?_⟩ <;> simp [State.nextTx, hp] at h

end

/-- Settles O42: every byte of the card is the answer of `State.exchange`. -/
theorem bytesNeedAnXfer : Obligations.BytesNeedAnXfer := by
  refine ⟨fun s hb => ?_, fun s tok hn => ?_, fun s tok tx htx => ⟨exec_busy_answer htx, exec_idle_answer htx, ?_⟩⟩
  · rw [State.nextTx, s.isBusy_false_iff.mp hb]
  · obtain ⟨hblock, hsegment, hstop⟩ := State.not_at_token hn
    have hx := State.exchange_none hn
    simp [exec, execBusy, execIdle, execStartBlock, execStartMulti, execStopTran, execDrespAccepted, execDrespCrcError,
      execDrespWriteError, hx, hblock, hsegment, hstop]
  · have hx := congrArg (Host.Outcome.next (φ := Fault) (ρ := Refusal)) (State.exchange_eq htx tok)
    exact List.forall_mem_cons.mpr ⟨hx, List.forall_mem_cons.mpr ⟨hx, List.forall_mem_singleton.mpr hx⟩⟩

end Sys2Proof.Machine

namespace Sys2Proof.Machine

/-! ### XFERs on the wire (42_card_transport.md R159, R164 to R166) -/

/-- These bytes were sent and received, in this order, and the card's script goes on with `rest`. -/
def State.wired (s : State) (bytes : List (Byte × Byte)) (rest : List Byte) : State :=
  { s with
    miso := rest,
    cardTrace := (bytes.map fun p => CardEvent.xfer s.sdCsN p.1 p.2).reverse ++ s.cardTrace,
    sdMosi := true, sdSclk := false }

/-- One XFER, a move of the engine, and then the others. -/
theorem State.wired_cons (s : State) (p : Pos) (b : Byte × Byte) (bytes : List (Byte × Byte))
    (more rest : List Byte) :
    ((s.wired [b] more).goto p).wired bytes rest = (s.wired (b :: bytes) rest).goto p := by
  simp [State.wired, State.goto]

/-- An XFER answered from the card's script. -/
theorem State.engineEvent_wired {s : State} {tx b : Byte} {rest : List Byte} (htx : s.nextTx = some tx)
    (hm : s.miso = b :: rest) : s.engineEvent = .next ((s.wired [(tx, b)] rest).received b) :=
  State.engineEvent_scripted htx hm

/-! ### A frame (42_card_transport.md R164) -/

/-- Where the engine sends byte `i` of the frame. -/
def Site.framePos (x : Site) : Nat → Pos
  | 0 => .command x
  | i + 1 => .frame x (i + 1)

/-- ACMD41 and ACMD23 are the commands read with R1POLL_B7 (42_card_transport.md R165, R166). -/
theorem Site.pollB7_iff (x : Site) : x.pollB7 = true ↔ x.cmd = .acmd41 ∨ x.cmd = .acmd23 := by
  unfold Site.pollB7
  cases x.cmd <;> decide

/-- The reads that a response poll allows after its first. -/
theorem State.pollLeft_eq (s : State) (x : Site) :
    s.pollLeft x =
      (if x.cmd = .acmd41 ∨ x.cmd = .acmd23 then s.cfg.nAcmdR1.toNat else s.cfg.nNcr.toNat) - 1 := by
  simp only [State.pollLeft, x.pollB7_iff, furtherPasses]
  split <;> rfl

/-- Byte `i` is the first of the frame's bytes from `i` on. -/
theorem State.frameOf_drop (s : State) (x : Site) {i : Nat} (hi : i < 6) :
    (s.frameOf x).drop i = s.frameByte x i :: (s.frameOf x).drop (i + 1) := by
  have hlt : i < (s.frameOf x).length := hi
  rw [List.drop_eq_getElem_cons hlt, State.frameByte, List.getD_eq_getElem _ _ hlt]

section
variable {s : State} {x : Site} {i : Nat} (hp : s.pos = x.framePos i)
include hp

theorem State.nextTx_framePos : s.nextTx = some (s.frameByte x i) := by
  cases i <;> rw [State.nextTx, hp] <;> rfl

/-- The byte received during the frame is ignored. -/
theorem State.received_framePos (r : Byte) :
    s.received r = s.goto (if i < 5 then x.framePos (i + 1) else .poll x (s.pollLeft x)) := by
  cases i with
  | zero =>
    rw [State.received, hp]
    rfl
  | succ i =>
    rw [State.received, hp]
    exact (apply_ite s.goto _ _ _).symm

end

/-- The frame from byte `i` to byte 5, and then the response poll. -/
theorem State.engineRun_frame {x : Site} {rest : List Byte} (answers : List Byte) {s : State} {i : Nat} (hi : i < 6)
    (hp : s.pos = x.framePos i) (hm : s.miso = answers ++ rest) (hlen : i + answers.length = 6) :
    s.engineRun answers.length =
      .next ((s.wired (((s.frameOf x).drop i).zip answers) rest).goto (.poll x (s.pollLeft x))) := by
  induction answers generalizing s i with
  | nil => exact absurd hlen (Nat.ne_of_lt hi)
  | cons a more ih =>
    have hevent := State.engineEvent_wired (State.nextTx_framePos hp) hm
    rw [State.received_framePos (s := s.wired _ _) hp] at hevent
    have hnext : i + 1 + more.length = 6 := by simp only [List.length_cons] at hlen; omega
    rw [List.length_cons, State.engineRun_succ _ hevent, s.frameOf_drop x hi, List.zip_cons_cons]
    by_cases hlast : i < 5
    · rw [if_pos hlast, ih (by omega) rfl rfl hnext, State.wired_cons]
      rfl
    · obtain rfl : more = [] := List.eq_nil_of_length_eq_zero (by omega)
      rw [if_neg hlast, List.zip_nil_right]
      rfl

/-- Settles O30: the frame from byte 0. -/
theorem frameOnWire : Obligations.FrameOnWire := by
  intro s x answers rest hp hlen hm
  have hrun := State.engineRun_frame answers (i := 0) (by decide) hp hm (by rw [hlen])
  rw [hlen, State.pollLeft_eq] at hrun
  exact hrun

/-! ### The response polls (42_card_transport.md R165, R166) -/

/-- Which byte ends the poll of which command. -/
theorem Site.pollEnds_iff (x : Site) (r : Byte) :
    x.pollEnds r = true ↔ if x.cmd = .acmd41 ∨ x.cmd = .acmd23 then r.getLsbD 7 = false else r ≠ 0xFF#8 := by
  simp only [Site.pollEnds, x.pollB7_iff]
  split
  · rw [Bool.not_eq_true']
  · exact bne_iff_ne

/-- What becomes of the R1 does not depend on where in the poll it came. -/
theorem State.r1Done_goto (s : State) (p : Pos) (x : Site) (r : Byte) :
    ({ s.goto p with lastR1 := r } : State).r1Done x r = ({ s with lastR1 := r } : State).r1Done x r := by
  unfold State.r1Done
  repeat' split
  all_goals rfl

section
variable {s : State} {x : Site} {left : Nat} {r : Byte}

/-- The byte that ends the poll, or the last one that its ceiling allows, is the R1. -/
theorem State.received_poll_last (hp : s.pos = .poll x left) (h : x.pollEnds r = true ∨ left = 0) :
    s.received r = ({ s with lastR1 := r } : State).r1Done x r := by
  rw [State.received, hp]
  rcases h with hends | rfl
  · exact if_pos hends
  · exact ite_self _

/-- A byte that does not end the poll is read past. -/
theorem State.received_poll_skip (hp : s.pos = .poll x (left + 1)) (h : ¬ x.pollEnds r = true) :
    s.received r = s.goto (.poll x left) := by
  rw [State.received, hp]
  exact if_neg h

end

/-- A poll skips the bytes that do not end it, and hands on the next one where it ends it or is the last allowed. -/
theorem State.engineRun_poll {x : Site} {r : Byte} {rest : List Byte} (skipped : List Byte) {s : State} {left : Nat}
    (hp : s.pos = .poll x left) (hskip : ∀ b ∈ skipped, ¬ x.pollEnds b = true) (hle : skipped.length ≤ left)
    (hlast : x.pollEnds r = true ∨ skipped.length = left) (hm : s.miso = skipped ++ r :: rest) :
    s.engineRun (skipped.length + 1) =
      .next (({ s.wired ((skipped ++ [r]).map fun b => (0xFF#8, b)) rest with lastR1 := r } : State).r1Done x r) := by
  have htx : s.nextTx = some 0xFF#8 := by rw [State.nextTx, hp]
  induction skipped generalizing s left with
  | nil =>
    have hevent := State.engineEvent_wired htx hm
    rw [State.received_poll_last (s := s.wired _ _) hp (hlast.imp_right Eq.symm)] at hevent
    exact State.engineRun_succ 0 hevent
  | cons b more ih =>
    obtain ⟨left, rfl⟩ : ∃ l, left = l + 1 := Nat.exists_eq_add_one.mpr (Nat.lt_of_lt_of_le (Nat.succ_pos _) hle)
    obtain ⟨hb, hmore⟩ := List.forall_mem_cons.mp hskip
    have hevent := State.engineEvent_wired htx hm
    rw [State.received_poll_skip (s := s.wired _ _) hp hb] at hevent
    have hrest := ih (s := (s.wired [(0xFF#8, b)] (more ++ r :: rest)).goto (.poll x left)) rfl hmore
      (Nat.le_of_succ_le_succ hle) (hlast.imp_right Nat.succ.inj) rfl rfl
    rw [State.wired_cons] at hrest
    exact (State.engineRun_succ _ hevent).trans (hrest.trans (congrArg _ (State.r1Done_goto _ _ x r)))

/-- Settles O31: the poll with the bytes that end it. -/
theorem responsePoll : Obligations.ResponsePoll := by
  intro s x left skipped rest r ends hp hskip hle hlast hm
  have hends : ∀ b, x.pollEnds b = true ↔ ends b := x.pollEnds_iff
  simp only [← hends] at hskip hlast
  rw [State.engineRun_poll skipped hp hskip hle hlast hm, State.wired, List.map_map]
  rfl

/-! ### The card port's events (42_card_transport.md R159, R163, R168, R169, 60_exceptions.md R236) -/

/-- The byte after an EPILOGUE's CS(1). -/
theorem State.engineEvent_trail {s : State} {a : After} (hp : s.pos = .trail a) :
    s.engineEvent = .next ((s.answerTaken.xfer 0xFF#8 s.cardAnswer).afterTrail a) := by
  have hsent : (s.answerTaken.xfer 0xFF#8 s.cardAnswer).pos = .trail a := by simpa using hp
  rw [State.engineEvent_xfer (tx := 0xFF#8) (by rw [State.nextTx, hp]), State.received, hsent]

/-- Settles O28: the XFER and the answers by definition, then the exchange's first event and its last two. -/
theorem cardPortEvents : Obligations.CardPortEvents := by
  refine ⟨⟨fun s tx rx => rfl, fun s b rest hm => ?_, fun s hm => ?_⟩, fun s x hp => ?_, fun s a hp => ?_,
    fun s c hp => State.engineEvent_trail hp, fun s c hp => State.engineEvent_trail hp⟩
  · rw [State.cardAnswer, State.answerTaken, hm]
    exact ⟨rfl, rfl⟩
  · rw [State.cardAnswer, State.answerTaken, hm]
    exact ⟨rfl, rfl⟩
  · rw [State.engineEvent_internal (by rw [State.nextTx, hp]), State.internal, hp]
    rfl
  · rw [State.engineEvent_internal (by rw [State.nextTx, hp]), State.internal, hp]
    rfl

/-! ### The read token poll (42_card_transport.md R170) -/

section
variable {s : State} {left : Nat} (hp : s.pos = .tokenPoll left)
include hp

theorem State.nextTx_tokenPoll : s.nextTx = some 0xFF#8 := by rw [State.nextTx, hp]

/-- The token ends the poll. -/
theorem State.received_token_found : s.received 0xFE#8 = { s with lastTok := 0xFE#8, pos := .readData 0 } := by
  rw [State.received, hp]
  rfl

/-- Any other byte is read past, up to the ceiling. -/
theorem State.received_token_other {r : Byte} (hr : r ≠ 0xFE#8) :
    s.received r =
      { s with
        lastTok := r, pos := if left = 0 then .deselect (.finish .eRdToken) else .tokenPoll (left - 1) } := by
  rw [State.received, hp]
  cases left <;> exact if_neg hr

end

/-- Settles O37: the byte that ends the poll, and every other. -/
theorem tokenPoll : Obligations.TokenPoll := by
  intro s left hp
  refine ⟨?_, fun b rest hm hb => ?_⟩
  · have hx : exec .startBlock s = .next (s.exchange 0xFE#8) := congrArg Host.Outcome.next (if_neg (by simp [hp]))
    rw [hx, State.exchange_eq (State.nextTx_tokenPoll hp), State.received_token_found (s := s.xfer _ _) hp]
  · rw [State.engineEvent_scripted (State.nextTx_tokenPoll hp) hm,
      State.received_token_other (s := ({ s with miso := rest } : State).xfer _ _) hp hb]

/-! ### The data responses that are not "accepted" (42_card_transport.md R172, 44_card_block_ops.md R208) -/

section
variable (s : State) (left : Nat) {r : Byte} (hr : r &&& 0x1F#8 ≠ 0x05#8)
include hr

/-- WRITE_BLOCK ends with what it saw, and reads on after an idle byte only. -/
theorem State.drespByte_block_rejected :
    s.drespByte .block left r =
      s.goto (if r &&& 0x1F#8 = 0x0B#8 then .deselect (.finish .eWrCrc)
        else if r &&& 0x1F#8 = 0x0D#8 then .deselect (.finish .eWrWrite)
        else if r ≠ 0xFF#8 then .deselect (.finish .eWrDrespOther)
        else if left = 0 then .deselect (.finish .eWrDrespTimeout)
        else .dresp .block (left - 1)) := by
  by_cases hidle : r = 0xFF#8
  · subst hidle
    cases left <;> rfl
  · have hclassified : s.drespByte .block left r = s.classify r := if_pos hidle
    rw [hclassified, State.classify, if_neg hr, if_pos hidle, apply_ite s.goto, apply_ite s.goto]

/-- WRITE_SEGMENT reads on after every byte, up to its ceiling. -/
theorem State.drespByte_segment_rejected :
    s.drespByte .segment left r =
      s.goto (if left = 0 then .deselect (.leave .eSesDresp) else .dresp .segment (left - 1)) := by
  cases left <;> exact if_neg hr

end

section
variable {s : State} {w : WriteKind} {left : Nat} (hp : s.pos = .dresp w left)
include hp

/-- A card byte is the answer of the data-response poll's XFER. -/
theorem State.exchange_dresp (r : Byte) :
    s.exchange r = ({ s.xfer 0xFF#8 r with lastTok := r } : State).drespByte w left r := by
  rw [State.exchange_eq (State.nextTx_dresp hp), State.received_dresp (s := s.xfer _ _) hp]

/-- The same with the byte from the card's script. -/
theorem State.engineEvent_dresp {b : Byte} {rest : List Byte} (hm : s.miso = b :: rest) :
    s.engineEvent =
      .next (({ ({ s with miso := rest } : State).xfer 0xFF#8 b with lastTok := b } : State).drespByte w left b) := by
  rw [State.engineEvent_scripted (State.nextTx_dresp hp) hm,
    State.received_dresp (s := ({ s with miso := rest } : State).xfer _ _) hp]

/-- A CRC error or a write error is such a byte. -/
theorem exec_drespError_dresp (tok : Byte) :
    exec (.drespCrcError tok) s = .next (({ s.xfer 0xFF#8 tok with lastTok := tok } : State).drespByte w left tok) ∧
    exec (.drespWriteError tok) s =
      .next (({ s.xfer 0xFF#8 tok with lastTok := tok } : State).drespByte w left tok) := by
  rw [← State.exchange_dresp hp]
  exact ⟨rfl, rfl⟩

end

/-- Settles O41: both polls, each with the two errors and with any other byte. -/
theorem dataResponseRejected : Obligations.DataResponseRejected := by
  refine fun s left => ⟨fun hp => ⟨fun tok ht => ?_, fun tok ht => ?_, fun b rest hm ha hc hw => ?_⟩,
    fun hp tok ha => ?_⟩
  · have ha : tok &&& 0x1F#8 ≠ 0x05#8 := by rw [ht]; decide
    rw [(exec_drespError_dresp hp tok).1, State.drespByte_block_rejected _ left ha, if_pos ht]
    rfl
  · have ha : tok &&& 0x1F#8 ≠ 0x05#8 := by rw [ht]; decide
    have hc : tok &&& 0x1F#8 ≠ 0x0B#8 := by rw [ht]; decide
    rw [(exec_drespError_dresp hp tok).2, State.drespByte_block_rejected _ left ha, if_neg hc, if_pos ht]
    rfl
  · rw [State.engineEvent_dresp hp hm, State.drespByte_block_rejected _ left ha, if_neg hc, if_neg hw]
    rfl
  · intro reads
    obtain ⟨hcrc, hwrite⟩ := exec_drespError_dresp hp tok
    have hreads := State.drespByte_segment_rejected { s.xfer 0xFF#8 tok with lastTok := tok } left ha
    refine ⟨fun _ => hcrc.trans (congrArg _ hreads), fun _ => hwrite.trans (congrArg _ hreads), fun rest hm => ?_⟩
    rw [State.engineEvent_dresp hp hm, State.drespByte_segment_rejected _ left ha]
    rfl

end Sys2Proof.Machine

namespace Sys2Proof.Machine

/-! ### The R1 of an exchange (42_card_transport.md R168) -/

section
variable (s : State) {p : Pass} (r : Byte)

/-- A pass that reads no response goes to its EPILOGUE; it succeeded if the R1 is the expected one. -/
theorem State.r1Done_pass_plain (h : p.hasResponse = false) :
    s.r1Done (.pass p) r = s.goto (.deselect (.pass p (decide (r = p.expected)))) := by
  by_cases hr : r = p.expected <;> simp [State.r1Done, hr, h]

/-- A pass with a response reads it after the expected R1, and failed after any other. -/
theorem State.r1Done_pass_response (h : p.hasResponse = true) :
    s.r1Done (.pass p) r = s.goto (if r = p.expected then .resp p 0 0#32 else .deselect (.pass p false)) := by
  by_cases hr : r = p.expected <;> simp [State.r1Done, hr, h]

end

/-- Settles O32: the three data commands, then the passes with and without a response. -/
theorem r1Outcome : Obligations.R1Outcome := by
  refine ⟨fun s r => ⟨?_, ?_, ?_⟩, fun s r p h => ?_, fun s r p h => ?_, fun s r p h => ?_, fun s r att left => ?_⟩
  · exact (apply_ite s.goto _ _ _).symm
  · exact (apply_ite s.goto _ _ _).symm
  · exact (apply_ite s.goto _ _ _).symm
  · obtain ⟨_, _, rfl⟩ | ⟨_, _, _, rfl⟩ := h <;> exact s.r1Done_pass_plain r rfl
  · obtain ⟨_, _, rfl⟩ | ⟨_, _, rfl⟩ := h <;> exact s.r1Done_pass_response r rfl
  · obtain ⟨_, _, rfl⟩ | ⟨_, _, rfl⟩ | ⟨_, rfl⟩ := h <;> exact s.r1Done_pass_plain r rfl
  · exact s.r1Done_pass_response r rfl

/-! ### The four bytes after an expected R1 (43_card_init.md R178, R179, R184) -/

/-- One more response byte, the ones before it moving up. -/
def shiftInByte (acc : Word) (r : Byte) : Word := (acc <<< 8) ||| r.setWidth 32

/-- The bytes are packed first byte high. -/
theorem shiftInByte_setWidth {w : Nat} (v : BitVec w) (r : Byte) :
    shiftInByte (v.setWidth 32) r = (v ++ r).setWidth 32 := by
  apply BitVec.eq_of_getLsbD_eq
  intro i hi
  by_cases h8 : i < 8
  · simp [shiftInByte, BitVec.getLsbD_append, h8, hi]
  · have hlow : r.getLsbD i = false := BitVec.getLsbD_of_ge r i (Nat.le_of_not_lt h8)
    simp [shiftInByte, BitVec.getLsbD_append, h8, hi, hlow]

/-- Four response bytes as a word. -/
theorem foldl_shiftInByte_four (v0 v1 v2 v3 : Byte) :
    [v0, v1, v2, v3].foldl shiftInByte 0#32 = v0 ++ v1 ++ v2 ++ v3 := by
  have hfirst : shiftInByte 0#32 v0 = v0.setWidth 32 := by simp [shiftInByte]
  simp only [List.foldl_cons, List.foldl_nil]
  rw [hfirst, shiftInByte_setWidth, shiftInByte_setWidth, shiftInByte_setWidth, BitVec.setWidth_eq]

/-- What becomes of the response does not depend on where the engine was. -/
theorem State.respDone_goto (s : State) (q : Pos) (p : Pass) (v : Word) : (s.goto q).respDone p v = s.respDone p v := by
  cases p <;> rfl

section
variable {s : State} {p : Pass} {acc : Word} (r : Byte)

/-- A response byte before the fourth is packed. -/
theorem State.received_resp_more {got : Nat} (hp : s.pos = .resp p got acc) (h : got < 3) :
    s.received r = s.goto (.resp p (got + 1) (shiftInByte acc r)) := by
  rw [State.received, hp]
  exact if_pos h

/-- The fourth response byte completes the word. -/
theorem State.received_resp_last (hp : s.pos = .resp p 3 acc) : s.received r = s.respDone p (shiftInByte acc r) := by
  rw [State.received, hp]
  rfl

end

/-- The response from byte `got` to the fourth, packed behind the bytes already in `acc`. -/
theorem State.engineRun_resp {p : Pass} {rest : List Byte} (bytes : List Byte) {s : State} {got : Nat} {acc : Word}
    (hp : s.pos = .resp p got acc) (hgot : got < 4) (hlen : got + bytes.length = 4) (hm : s.miso = bytes ++ rest) :
    s.engineRun bytes.length =
      .next ((s.wired (bytes.map fun b => (0xFF#8, b)) rest).respDone p (bytes.foldl shiftInByte acc)) := by
  induction bytes generalizing s got acc with
  | nil => exact absurd hlen (Nat.ne_of_lt hgot)
  | cons b more ih =>
    have hevent := State.engineEvent_wired (tx := 0xFF#8) (by rw [State.nextTx, hp]) hm
    have hnext : got + 1 + more.length = 4 := by simp only [List.length_cons] at hlen; omega
    by_cases hlast : got < 3
    · rw [State.received_resp_more (s := s.wired _ _) b hp hlast] at hevent
      have hrest := ih (s := (s.wired [(0xFF#8, b)] (more ++ rest)).goto (.resp p (got + 1) (shiftInByte acc b)))
        rfl (by omega) hnext rfl
      rw [State.wired_cons, State.respDone_goto] at hrest
      exact (State.engineRun_succ _ hevent).trans hrest
    · obtain rfl : got = 3 := by omega
      obtain rfl : more = [] := List.eq_nil_of_length_eq_zero (by omega)
      rw [State.received_resp_last (s := s.wired _ _) b hp] at hevent
      exact State.engineRun_succ 0 hevent

/-- Settles O33: the response of four bytes, and what CMD8 and the two CMD58 do with it. -/
theorem responseBytes : Obligations.ResponseBytes := by
  intro s att left v0 v1 v2 v3 rest hm read
  have hrun : ∀ p, s.pos = .resp p 0 0#32 →
      s.engineRun 4 =
        .next ((s.wired ([v0, v1, v2, v3].map fun b => (0xFF#8, b)) rest).respDone p (v0 ++ v1 ++ v2 ++ v3)) :=
    fun p hp => foldl_shiftInByte_four v0 v1 v2 v3 ▸ State.engineRun_resp [v0, v1, v2, v3] hp (by decide) rfl hm
  have hecho : (v0 ++ v1 ++ v2 ++ v3).extractLsb' 0 8 = v3 := BitVec.extractLsb'_append_eq_right
  have hccs : (v0 ++ v1 ++ v2 ++ v3).getLsbD 30 = v0.getLsbD 6 := by
    simp only [BitVec.getLsbD_append]
    rfl
  refine ⟨fun hp => ?_, fun hp => hrun _ hp, fun hp => ?_⟩
  · rw [hrun _ hp, State.respDone, hecho]
    rfl
  · rw [hrun _ hp, State.respDone, hccs]
    rfl

/-! ### What follows a pass (43_card_init.md R173 to R186, 44_card_block_ops.md R204) -/

/-- A completion with a fatal class in a block with no fatal code records the class (60_exceptions.md R223). -/
theorem State.finish_fatal {s : State} {c : Code} (hf : s.fatalC = .none) (hc : c.fatalClass.isSet = true) :
    s.finish c =
      { s with
        code := c, pos := .idle, done := true, fatalC := c.fatalClass, fatS := { s.fatS with old := some false } } := by
  rw [State.finish, State.fatalUpdate, hf, if_neg (by decide), if_pos hc, State.setFatalC, hf]
  rfl

/-- The last attempt that fails ends INIT with the failed step's code and FATAL_C 2 (43_card_init.md R174, R186). -/
theorem State.attemptFailed_last {s : State} {att : Nat} {c : Code} (h : s.cfg.maxInit.toNat ≤ att)
    (hf : s.fatalC = .none) (hc : c.fatalClass = .cardNotInitialized) :
    s.attemptFailed att c =
      { s with
        session := .notInit, code := c, pos := .idle, done := true, fatalC := .cardNotInitialized,
        fatS := { s.fatS with old := some false } } := by
  rw [State.attemptFailed, if_neg (Nat.not_lt.mpr h),
    State.finish_fatal (s := { s with session := .notInit }) hf (hc ▸ rfl), hc]

/-- Settles O34: each clause is one line of what a pass leads to. -/
theorem passSequence : Obligations.PassSequence := by
  intro s p ok hp x goes
  have hevent : s.engineEvent = .next (x.passDone p ok) := State.engineEvent_trail hp
  have hends : ∀ (c : Code) (t : State), c.fatalClass.isSet = false → x.passDone p ok = t.finish c →
      s.engineEvent = .next { t with code := c, done := true, pos := .idle } := fun c t hc ht => by
    rw [hevent, ht, t.finish_not_fatal hc]
  have hcfg : x.cfg = s.cfg := by simp [x]
  have hfatalC : x.fatalC = s.fatalC := by simp [x]
  have hfatS : x.fatS = s.fatS := by simp [x]
  rw [← hcfg, ← hfatalC, ← hfatS]
  refine ⟨fun att left outer hok => ?again, fun att outer hok step hstep hpass => ?exhausted,
    fun att left outer hok => ?success, fun hok => ?warning⟩ <;> subst hok
  case again => refine ⟨?_, ?_, ?_, ?_, ?_, ?_, ?_, ?_⟩ <;> rintro rfl <;> exact hevent
  case exhausted =>
    obtain ⟨hfailed, hclass⟩ : x.passDone step.1 false = x.attemptFailed att step.2 ∧
        step.2.fatalClass = .cardNotInitialized := by
      simp only [List.mem_cons, List.not_mem_nil, or_false] at hstep
      obtain rfl | rfl | rfl | rfl | rfl | rfl := hstep <;> exact ⟨rfl, rfl⟩
    rw [hevent, hpass, hfailed]
    exact ⟨fun h => congrArg _ (if_pos h), fun h hf => congrArg _ (State.attemptFailed_last h hf hclass)⟩
  case success =>
    refine ⟨?_, ?_, ?_, ?_, ?_, ?post, ?_, ?erased⟩ <;> rintro rfl
    case post => exact hends .ok { x with session := .ready } rfl rfl
    case erased => exact hends .ok x rfl rfl
    all_goals exact hevent
  case warning =>
    refine ⟨?cmd55, ?acmd23⟩
    case cmd55 =>
      rintro outer rfl
      exact hends .wPreCmd55 x rfl rfl
    case acmd23 =>
      rintro rfl
      exact hends .wPreAcmd23 x rfl rfl

/-! ### IDLE_CLOCK (43_card_init.md R173, R175) -/

/-- The clock is slow and the card deselected before the idle bytes. -/
theorem State.engineEvent_initDeselect {s : State} {att : Nat} (hp : s.pos = .initDeselect att) :
    s.engineEvent =
      .next { s with
        fast := false, sdCsN := true, cardTrace := .cs true :: s.cardTrace,
        pos := .initIdle att (furtherPasses s.cfg.nIdle) } := by
  rw [State.engineEvent_internal (by rw [State.nextTx, hp]), State.internal, hp]
  rfl

/-- Bytes sent from idle lines leave nothing but their trace (42_card_transport.md R159). -/
theorem State.wired_of_lines_idle {s : State} (hmosi : s.sdMosi = true) (hsclk : s.sdSclk = false)
    (bytes : List (Byte × Byte)) (rest : List Byte) :
    s.wired bytes rest =
      { s with
        miso := rest,
        cardTrace := (bytes.map fun p => CardEvent.xfer s.sdCsN p.1 p.2).reverse ++ s.cardTrace } := by
  rw [State.wired, ← hmosi, ← hsclk]

/-- The idle bytes, `left` more after the first, and then CMD0. -/
theorem State.engineRun_initIdle {att : Nat} {rest : List Byte} (answers : List Byte) {s : State} {left : Nat}
    (hp : s.pos = .initIdle att left) (hlen : answers.length = left + 1) (hm : s.miso = answers ++ rest) :
    s.engineRun answers.length =
      .next ((s.wired (answers.map fun b => (0xFF#8, b)) rest).goto
        (.select (.pass (.cmd0 att (furtherPasses s.cfg.nCmd0))))) := by
  induction answers generalizing s left with
  | nil => exact absurd hlen (Nat.succ_ne_zero left).symm
  | cons b more ih =>
    have hevent := State.engineEvent_wired (tx := 0xFF#8) (by rw [State.nextTx, hp]) hm
    rw [State.received, show (s.wired _ _).pos = _ from hp] at hevent
    cases left with
    | zero =>
      obtain rfl : more = [] := List.eq_nil_of_length_eq_zero (Nat.succ.inj hlen)
      exact State.engineRun_succ 0 hevent
    | succ left =>
      have hrest := ih (s := (s.wired [(0xFF#8, b)] (more ++ rest)).goto (.initIdle att left)) rfl
        (Nat.succ.inj hlen) rfl
      rw [State.wired_cons] at hrest
      exact (State.engineRun_succ _ hevent).trans hrest

/-- The same from idle lines, with the trace that it leaves. -/
theorem State.engineRun_initIdle_traced {s : State} {att left : Nat} {answers rest : List Byte}
    (hmosi : s.sdMosi = true) (hsclk : s.sdSclk = false) (hp : s.pos = .initIdle att left)
    (hlen : answers.length = left + 1) (hm : s.miso = answers ++ rest) :
    s.engineRun answers.length =
      .next { s with
        miso := rest,
        cardTrace := (answers.map fun b => CardEvent.xfer s.sdCsN 0xFF#8 b).reverse ++ s.cardTrace,
        pos := .select (.pass (.cmd0 att (furtherPasses s.cfg.nCmd0))) } := by
  rw [State.engineRun_initIdle answers hp hlen hm, State.wired_of_lines_idle hmosi hsclk, List.map_map]
  rfl

/-- Settles O35: INIT's first lines, then CS(1) and the idle bytes. -/
theorem idleClock : Obligations.IdleClock := by
  refine ⟨fun s hp => ?_, fun s att answers rest d hp hlen hm => ⟨d.ceilings.nIdle, ?_⟩⟩
  · rw [State.engineEvent_internal (by rw [State.nextTx, hp]), State.internal, hp]
    rfl
  · rw [Nat.add_comm, State.engineRun_succ _ (State.engineEvent_initDeselect hp), ← hlen]
    exact State.engineRun_initIdle_traced d.mosi d.sclk rfl (hlen.trans d.ceilings.ceilings.1) hm

end Sys2Proof.Machine

namespace Sys2Proof.Machine

/-! ### The payload of a block read (44_card_block_ops.md R189, R190) -/

/-- Writing the element after a prefix extends the prefix by it. -/
theorem take_succ_set {α : Type} (l : List α) (a : α) {i : Nat} (h : i < l.length) :
    (l.set i a).take (i + 1) = l.take i ++ [a] := by
  rw [List.take_add_one, List.take_set_of_le (Nat.le_refl i), List.getElem?_set_self h]
  rfl

/-- A payload byte is stored at its own place of RDBUF; the CRC follows the last. -/
theorem State.received_readData {s : State} {i : Nat} (hp : s.pos = .readData i) (r : Byte) :
    s.received r =
      ({ s with rdbuf := s.rdbuf.set i r } : State).goto (if i < 511 then .readData (i + 1) else .readCrcHigh) := by
  rw [State.received, hp]
  exact (apply_ite (State.goto _) _ _ _).symm

/-- The payload from byte `i` to byte 511, each behind the bytes already stored, and then the CRC. -/
theorem State.engineRun_readData {rest : List Byte} (k : Nat) (data : List Byte) {s : State} {i : Nat}
    (hp : s.pos = .readData i) (hi : i < 512) (hlen : i + data.length = 512) (hbuf : s.rdbuf.length = 512)
    (hm : s.miso = data ++ rest) :
    s.engineRun (k + data.length) =
      (({ s.wired (data.map fun b => (0xFF#8, b)) rest with rdbuf := s.rdbuf.take i ++ data } : State).goto
        .readCrcHigh).engineRun k := by
  induction data generalizing s i with
  | nil => exact absurd hlen (Nat.ne_of_lt hi)
  | cons b more ih =>
    have hevent := State.engineEvent_wired (tx := 0xFF#8) (by rw [State.nextTx, hp]) hm
    rw [State.received_readData (s := s.wired _ _) hp] at hevent
    have hnext : i + 1 + more.length = 512 := by simp only [List.length_cons] at hlen; omega
    have htake : (s.rdbuf.set i b).take (i + 1) = s.rdbuf.take i ++ [b] := take_succ_set _ b (hbuf ▸ hi)
    refine (State.engineRun_succ (k + more.length) hevent).trans ?_
    by_cases hlast : i < 511
    · rw [if_pos hlast, ih rfl (by omega) hnext (List.length_set.trans hbuf) rfl]
      simp [State.wired, State.goto, htake]
    · obtain rfl : more = [] := List.eq_nil_of_length_eq_zero (by omega)
      have hfull : (s.rdbuf.set i b).take (i + 1) = s.rdbuf.set i b :=
        List.take_of_length_le (by rw [List.length_set]; omega)
      rw [if_neg hlast, List.map_singleton, ← htake, hfull]
      rfl

/-- The two CRC bytes, first byte high, and then the EPILOGUE of a read that ends OK. -/
theorem State.engineRun_readCrc {s : State} {c0 c1 : Byte} {rest : List Byte} (k : Nat) (hp : s.pos = .readCrcHigh)
    (hm : s.miso = c0 :: c1 :: rest) :
    s.engineRun (k + 2) =
      (({ s.wired [(0xFF#8, c0), (0xFF#8, c1)] rest with rdcrc := c0 ++ c1 } : State).goto
        (.deselect (.finish .ok))).engineRun k := by
  have hhigh := State.engineEvent_wired (tx := 0xFF#8) (by rw [State.nextTx, hp]) hm
  rw [State.received, show (s.wired _ _).pos = _ from hp] at hhigh
  have hlow := State.engineEvent_wired (s := (s.wired [(0xFF#8, c0)] (c1 :: rest)).goto (.readCrcLow c0))
    (tx := 0xFF#8) rfl rfl
  exact (State.engineRun_succ (k + 1) hhigh).trans (State.engineRun_succ k hlow)

/-- An EPILOGUE with a code of no fatal class: CS(1), one byte, and the completion (42_card_transport.md R169). -/
theorem State.engineRun_epilogue {s : State} {c : Code} {r : Byte} {rest : List Byte}
    (hp : s.pos = .deselect (.finish c)) (hc : c.fatalClass.isSet = false) (hm : s.miso = r :: rest) :
    s.engineRun 2 =
      .next { s with
        miso := rest, sdCsN := true, sdMosi := true, sdSclk := false,
        cardTrace := .xfer true 0xFF#8 r :: .cs true :: s.cardTrace, code := c, done := true, pos := .idle } := by
  have hdeselect : s.engineEvent = .next ((s.setCs true).goto (.trail (.finish c))) := by
    rw [State.engineEvent_internal (by rw [State.nextTx, hp]), State.internal, hp]
  have htrail := State.engineEvent_wired (s := (s.setCs true).goto (.trail (.finish c))) (tx := 0xFF#8) rfl hm
  rw [State.engineRun_succ 1 hdeselect, State.engineRun_succ 0 htrail]
  exact congrArg Host.Outcome.next (State.finish_not_fatal _ hc)

/-- Settles O43: the payload from byte 0, the CRC, the EPILOGUE. -/
theorem readBlockData : Obligations.ReadBlockData := by
  intro s data rest c0 c1 r hp hbuf hlen hm
  have hdata := State.engineRun_readData 4 data hp (by decide) ((Nat.zero_add _).trans hlen) hbuf hm
  rw [hlen] at hdata
  rw [hdata, State.engineRun_readCrc 2 rfl rfl, State.engineRun_epilogue rfl rfl rfl]
  simp [State.wired, State.goto]

end Sys2Proof.Machine

namespace Sys2Proof.Machine

/-! ### A step goes on, but for a torn capture (60_exceptions.md R238) -/

/-- A word that is an instruction of its format goes on. -/
theorem State.runWord_next {f : Format} {w : Word} {i : Instr} (h : decode f w = .instr i) (s : State) :
    ∃ t, s.runWord f w = .next t := by
  rw [State.runWord_decoded h]
  exact exec_next i s

/-- A host write goes on: every word is a command word (30_encoding.md R105), and a register takes any value. -/
theorem State.hostWriteEvent_next (s : State) (addr : BitVec 12) (v : Word) :
    ∃ t, s.hostWriteEvent addr v = .next t := by
  unfold State.hostWriteEvent
  split
  · exact State.runWord_next rfl s
  · exact ⟨_, rfl⟩

/-- Every line of a host program goes on. -/
theorem State.hostLineEvent_next (s : State) : ∃ t, s.hostLineEvent = .next t := by
  unfold State.hostLineEvent
  split
  case h_2 addr v _ => exact State.hostWriteEvent_next _ addr v
  all_goals exact ⟨_, rfl⟩

/-- Every engine event goes on. -/
theorem State.engineEvent_next (s : State) : ∃ t, s.engineEvent = .next t := by
  rcases s.engineEvent_cases with ⟨_, h⟩ | ⟨_, _, h⟩ <;> exact ⟨_, h⟩

/-- A synchronizer step goes on, or stops with its crossing's fault on a torn capture. -/
theorem State.syncStep_cases (s : State) (x : Crossing) (k : Capture) :
    (∃ t, s.syncStep x k = .next t) ∨ (s.sync x k = none ∧ s.syncStep x k = .fault (.tornCapture x)) := by
  unfold State.syncStep
  cases s.sync x k with
  | none => exact .inr ⟨rfl, rfl⟩
  | some t => exact .inl ⟨t, rfl⟩

/-- Every event goes on, but for a synchronizer step with a torn capture. -/
theorem State.takeEvent_next_or_torn (s : State) (e : Event) :
    (∃ t, s.takeEvent e = .next t) ∨
      ∃ x k, e = .sync x k ∧ s.sync x k = none ∧ s.takeEvent e = .fault (.tornCapture x) := by
  cases e with
  | sync x k => exact (s.syncStep_cases x k).imp_right fun ⟨hn, hf⟩ => ⟨x, k, rfl, hn, hf⟩
  | hostWrite addr v => exact .inl (s.hostWriteEvent_next addr v)
  | hostLine => exact .inl s.hostLineEvent_next
  | producerEvent w => exact .inl (State.runWord_next (decode_pevent_setWidth w) s)
  | engine => exact .inl s.engineEvent_next
  | hostRead | producerCycle | producerWrite | blink | resetAssert | resetReleaseP | resetReleaseC =>
    exact .inl ⟨_, rfl⟩

/-- A step of a legal build goes on, but for a synchronizer step with a torn capture. -/
theorem step_next_or_torn {s : State} (hl : s.par.legal = true) :
    (∃ t, step s = .next t) ∨
      ∃ x k, s.nextEvent = .sync x k ∧ s.eventTaken.sync x k = none ∧ step s = .fault (.tornCapture x) := by
  rw [step, if_pos hl, State.runEvent]
  split
  · exact .inl ⟨_, rfl⟩
  · exact s.eventTaken.takeEvent_next_or_torn s.nextEvent

/-- A chain within the state that stops captured bits that its source neither holds nor held before its latest
change. -/
theorem Chain.torn_of_sync_map {α : Type} {c : Chain α} {bitsOf : α → Word} {cur : α} {k : Capture}
    {put : Chain α → State} (h : (c.sync bitsOf cur k).map put = none) :
    ∃ v, k = .bits v ∧ v ≠ bitsOf cur ∧ ∀ o, c.old = some o → v ≠ bitsOf o :=
  (c.sync_none_iff bitsOf cur k).mp (Option.map_eq_none_iff.mp h)

/-- Settles O9: only a synchronizer step stops, and its chain says on which bits. -/
theorem stepAlwaysDefined : Obligations.StepAlwaysDefined := by
  refine ⟨fun s hl => ?_, fun s hl => by simp [step, hl]⟩
  refine (step_next_or_torn hl).imp_right fun ⟨x, k, he, hn, hf⟩ => ?_
  simp only [← FatalC.isSet_eq_decide]
  cases x
  all_goals
    simp only [State.sync, State.eventTaken_fields] at hn
    obtain ⟨v, rfl, hcur, hold⟩ := Chain.torn_of_sync_map hn
    refine ⟨_, v, he, hf, hcur, ?_⟩
  case head | tail => exact fun ho => hold v ho rfl
  all_goals exact hold

/-! ### The halted block's idle engine and indicators (60_exceptions.md R227, R228) -/

theorem State.halted_iff_fatal (s : State) : s.halted = true ↔ s.fatal ≠ 0#2 := by simp [State.halted]

/-- Only a halted block's idle engine acts, when it finds the card selected (41_host_commands.md R155). -/
theorem State.engineEvent_idle {s : State} (hp : s.pos = .idle) :
    s.engineEvent = .next (if s.halted && !s.sdCsN then s.setCs true else s) := by
  rw [State.engineEvent_internal (by rw [State.nextTx, hp]), State.internal, hp]

/-- An edge of the indicator pattern moves its phase and nothing else. -/
theorem State.blinkEdge_frame (s : State) : ({ s.blinkEdge with blink := s.blink } : State) = s := by
  unfold State.blinkEdge
  split <;> rfl

theorem State.indicators_unhalted {s : State} (h : s.fatal = 0#2) : s.indA = false ∧ s.indB = false := by
  have hh : s.halted = false := by simp [State.halted, h]
  simp [State.indA, State.indB, hh]

section
variable {s : State} (hf : s.fatal ≠ 0#2)
include hf

/-- An edge of a halted block's pattern is the next phase of the period. -/
theorem State.blinkEdge_phase (k : Nat) :
    State.blinkEdge { s with blink := k % blinkPeriod s.fatal } =
      { s with blink := (k + 1) % blinkPeriod s.fatal } := by
  have hh : s.halted = true := s.halted_iff_fatal.mpr hf
  have hpos : 0 < blinkPeriod s.fatal := by simp [blinkPeriod]
  have hlt := Nat.mod_lt k hpos
  have hnext : (k + 1) % blinkPeriod s.fatal =
      if k % blinkPeriod s.fatal + 1 < blinkPeriod s.fatal then k % blinkPeriod s.fatal + 1 else 0 := by
    rw [← Nat.mod_add_mod]
    split
    next h => exact Nat.mod_eq_of_lt h
    next h => rw [show k % blinkPeriod s.fatal + 1 = blinkPeriod s.fatal by omega, Nat.mod_self]
  rw [hnext]
  exact if_pos hh

/-- From the pattern's start, `k` edges reach phase `k` of the repeating period. -/
theorem State.blinkEdge_iterate (hb : s.blink = 0) (k : Nat) :
    State.blinkEdge^[k] s = { s with blink := k % blinkPeriod s.fatal } := by
  induction k with
  | zero => rw [Function.iterate_zero_apply, Nat.zero_mod, ← hb]
  | succ k ih => rw [Function.iterate_succ_apply', ih, State.blinkEdge_phase hf]

/-- A phase's indicators: even phases are high, the first `FATAL` of them on `ind_a`, the next on `ind_b`. -/
theorem State.indicators_phase (p : Nat) :
    (({ s with blink := p } : State).indA = true ↔ p % 2 = 0 ∧ p / 2 < s.fatal.toNat) ∧
      (({ s with blink := p } : State).indB = true ↔ p = 2 * s.fatal.toNat) := by
  have hh : ({ s with blink := p } : State).halted = true := s.halted_iff_fatal.mpr hf
  have hfatal : ({ s with blink := p } : State).fatal = s.fatal := rfl
  simp only [State.indA, State.indB, hh, hfatal, Bool.true_and, Bool.and_eq_true, decide_eq_true_eq, true_and]
  omega

end

/-- Settles O18: the idle engine's event, then the phase that `k` edges reach. -/
theorem haltDeselectsOnce : Obligations.HaltDeselectsOnce := by
  refine ⟨fun s hp => ⟨fun hf hcs => ?_, fun h => ?_⟩, fun s =>
    ⟨State.indicators_unhalted, rfl, s.blinkEdge_frame, fun hf hb k => ?_⟩⟩
  · have hh := s.halted_iff_fatal.mpr hf
    rw [State.engineEvent_idle hp, hh, hcs]
    rfl
  · have hn : (s.halted && !s.sdCsN) = false := by
      rcases h with hcs | hf
      · simp [hcs]
      · simp [State.halted, hf]
    rw [State.engineEvent_idle hp, hn]
    rfl
  · simp only [State.blinkEdge_iterate hf hb]
    exact State.indicators_phase hf _

/-! ### The interrupt and the status codes (60_exceptions.md R217, R229) -/

/-- Settles O22: the read words are STATUS and CTRL, whose bits are the registers of `irq`. -/
theorem interruptLevel : Obligations.InterruptLevel := by
  intro s
  have status : s.hostRead 0x00C#12 = s.statusWord := rfl
  have ctrl : s.hostRead 0x000#12 = s.ctrlWord := rfl
  obtain ⟨_, done, ready, _⟩ := s.statusWord_bits
  obtain ⟨_, _, fatal, _⟩ := s.statusWord_fields
  obtain ⟨_, ieDone, ieReady, ieFatal, _⟩ := s.ctrlWord_bits
  rw [status, ctrl, done, ready, fatal, ieDone, ieReady, ieFatal]
  rfl

/-- Settles O15: code by code. -/
theorem statusCodeNumbers : Obligations.StatusCodeNumbers := by
  refine ⟨rfl, fun c => ?_⟩
  cases c <;> decide

end Sys2Proof.Machine

namespace Sys2Proof.Machine

/-! ### XFERs made and still allowed (70_reset_and_hazards.md R254) -/

/-- An operation's first position allows what R254's table allows the operation. -/
theorem State.xfersLeft_firstPos_le {s : State} (hc : s.cfg.AtLeastMinimum) (op : HostOp) :
    s.cfg.xfersLeft (s.firstPos op) ≤ s.cfg.operationBound op := by
  obtain ⟨_, _, _, _, _, cmd55, _, _, _, _, _, pre⟩ := hc.ceilings
  cases op with
  | init =>
    simp only [State.firstPos, Cfg.xfersLeft, Cfg.operationBound, Cfg.attempt, Cfg.responsePasses, Cfg.acmdLoop,
      Cfg.plainExchange, Cfg.acmdExchange]
    apply Nat.le_of_eq
    ring
  | preErase => -- every outer iteration is a CMD55 loop and an ACMD
    obtain ⟨_, _, _, _, _, _, cost, _⟩ := s.cfg.xfersLeft_select_pass
    have h : s.cfg.xfersLeft (s.firstPos .preErase) = s.cfg.nPre.toNat * s.cfg.acmdLoop := by
      rw [State.firstPos, cost, ← cmd55, Cfg.afterPass, pre, Nat.succ_mul, Nat.add_comm, Cfg.acmdLoop]
    rw [h]
    exact Nat.mul_le_mul_left _ (by simp only [Cfg.acmdLoop, Cfg.plainExchange, Cfg.acmdExchange]; omega)
  | readBlock | writeBlock | beginSession | writeSegment | endSession =>
    simp only [State.firstPos, Cfg.xfersLeft, Cfg.operationBound, Cfg.afterR1, Cfg.pollCeiling, Site.pollB7, Site.cmd,
      Cfg.blockTail, Bool.false_eq_true, if_false]
    omega

/-- The XFERs of an operation, made and still allowed. -/
def State.xferBudget (s : State) : Nat := xferCount s.cardTrace + s.xfersLeft

@[simp] theorem xferCount_xfer (csN : Bool) (tx rx : Byte) (trace : List CardEvent) :
    xferCount (.xfer csN tx rx :: trace) = xferCount trace + 1 :=
  List.countP_cons_of_pos rfl

/-- What a received byte leads to is no event of the card port. -/
theorem ByteAction.cardTrace {s t : State} (ha : ByteAction s t) : t.cardTrace = s.cardTrace := by
  cases ha with
  | finishes c code _ => simp [State.load]
  | _ => rfl

@[simp] theorem State.received_cardTrace (s : State) (r : Byte) : (s.received r).cardTrace = s.cardTrace :=
  (s.received_action r).cardTrace

/-- An engine event that is no XFER puts at most a CS on the trace. -/
theorem State.internal_xferCount (s : State) : xferCount s.internal.cardTrace = xferCount s.cardTrace := by
  rcases s.internal_cases with
    ⟨hi, _⟩ | ⟨_, _, _, hi⟩ | ⟨_, hi⟩ | ⟨_, _, hi⟩ | ⟨_, _, hi⟩ | ⟨_, _, hi⟩ | ⟨w, i, _, hi⟩ <;> rw [hi]
  case inr.inr.inr.inr.inr.inr =>
    rcases s.serveRead_cases w i with hs | ⟨_, _, _, _, hs⟩ <;> rw [hs]
  all_goals rfl

/-- A host write does not change what a running operation may exchange: a command word is lost, ARG and CFG_* ignore it
(41_host_commands.md R156, R157). -/
theorem HostAction.xferBudget {s t : State} (ha : HostAction s t) (hb : s.isBusy = true) :
    t.xferBudget = s.xferBudget := by
  cases ha with
  | completed c h | started op h _ _ | arg v h | cfg a v c h _ => exact absurd (h.symm.trans hb) nofun
  | ctrl v => rw [s.writeCtrl_eq]; rfl
  | nothing | lost _ | status v => rfl

/-- An XFER is paid from what was still allowed; every other event but reset leaves both counts alone. -/
theorem Action.xferBudget_le {s t : State} {e : Event} (d : DataInv s) (h : ControlInv s) (hb : s.isBusy = true)
    (he : e ≠ .resetAssert) (ha : Action s e t) : t.xferBudget ≤ s.xferBudget := by
  by_cases hd : e.inProducerDomain = true
  · have hv := congrArg State.xferBudget (ha.consumerView hd)
    exact Nat.le_of_eq hv
  cases ha with
  | read | releaseP | releaseC => exact Nat.le_refl _
  | host e host t _ ha => exact Nat.le_of_eq (ha.xferBudget hb)
  | xfer tx htx =>
    have hlt := (h.xfer d htx).fewer
    simp only [State.xferBudget, State.received_cardTrace, State.xfer_fields, State.answerTaken_fields, xferCount_xfer]
    omega
  | internal _ =>
    rw [State.xferBudget, s.internal_xferCount, h.internal_xfersLeft d]
    exact Nat.le_refl _
  | capture x k t hs =>
    rw [State.sync_chains hs]
    exact Nat.le_refl _
  | blink => simp [State.xferBudget, State.xfersLeft]
  | reset => exact absurd rfl he
  | sync | sample | cycle | write => exact absurd rfl hd

/-- Settles O59: the first position's bound, then a step drops its event or takes it. -/
theorem xfersBounded : Obligations.XfersBounded := by
  refine ⟨fun s op d => State.xfersLeft_firstPos_le d.ceilings op, fun s t d h hb he hst => ?_⟩
  have budget : s.eventTaken.xferBudget = s.xferBudget := by simp [State.xferBudget, State.xfersLeft]
  have busy : s.eventTaken.isBusy = true := by simpa [State.isBusy] using hb
  refine Nat.le_trans ?_ (Nat.le_of_eq budget)
  obtain ⟨_, ⟨_, rfl⟩ | ⟨_, ha⟩⟩ := step_cases hst
  · exact Nat.le_refl _
  · exact ha.xferBudget_le d.eventTaken h.eventTaken busy he

end Sys2Proof.Machine

namespace Sys2Proof.Machine

/-! ### Reset (70_reset_and_hazards.md R239, R240) -/

/-- A chain of equal stages shows their value, also where it has none. -/
@[simp] theorem Chain.const_last_self {α : Type} (n : Nat) (v : α) : (Chain.const n v).last v = v := by
  cases n with
  | zero => rfl
  | succ n => exact Chain.const_last n.succ_pos v v

/-- The cursors, flags and codes that clk_c computes are 0 after reset. -/
theorem State.assertReset_views (s : State) :
    s.assertReset.headC = 0#32 ∧ s.assertReset.tail = 0#32 ∧ s.assertReset.pending = 0#32 ∧
    s.assertReset.blockReady = false ∧ s.assertReset.ovfSeen = false ∧ s.assertReset.pLostSeen = false ∧
    s.assertReset.fatal = 0#2 ∧ s.assertReset.isBusy = false := by
  have headC : s.assertReset.headC = 0#32 := by simp [State.headC]
  have tail : s.assertReset.tail = 0#32 := by simp [State.tail]
  have pending : s.assertReset.pending = 0#32 := by simp [State.pending, headC, tail, subMod]
  have ovf : s.assertReset.ovfSeen = false := by simp [State.ovfSeen]
  exact ⟨headC, tail, pending, by simp [State.blockReady, pending], ovf, by simp [State.pLostSeen],
    by simp [State.fatal, ovf, FatalC.bits], rfl⟩

/-- The words that a host reads of several fields, after reset: CTRL, STATUS, LAST, CFG_SPI. -/
theorem State.assertReset_words (s : State) :
    s.assertReset.ctrlWord = 0#32 ∧ s.assertReset.statusWord = 0#32 ∧ s.assertReset.lastWord = 0x0000FFFF#32 ∧
    s.assertReset.cfg.spiWord = 0x0001007F#32 := by
  obtain ⟨_, _, _, ready, ovf, plost, fatal, busy⟩ := s.assertReset_views
  refine ⟨?_, ?_, ?_, ?_⟩
  all_goals
    simp only [State.ctrlWord, State.statusWord, State.lastWord, State.assertReset_fields, ready, ovf, plost, fatal,
      busy]
    decide

/-- The interrupt and the indicators after reset. -/
theorem State.assertReset_outputs (s : State) :
    s.assertReset.irq = false ∧ s.assertReset.indA = false ∧ s.assertReset.indB = false := by
  obtain ⟨_, _, _, _, _, _, fatal, _⟩ := s.assertReset_views
  exact ⟨by simp [State.irq], State.indicators_unhalted fatal⟩

/-- Settles O6: the registers as reset writes them, then the words a host reads; a held event is dropped. -/
theorem resetValues : Obligations.ResetValues := by
  refine ⟨fun s _ => ?_, fun s e => ⟨fun hr he => ?_, fun hr he => ?_⟩⟩
  · obtain ⟨headC, tail, pending, _⟩ := s.assertReset_views
    obtain ⟨ctrl, status, last, spi⟩ := s.assertReset_words
    refine ⟨s.assertReset, rfl, ?_, ?_, ?_, ?_, s.assertReset_outputs, rfl, rfl, rfl, rfl⟩
    · exact ⟨rfl, rfl, rfl, rfl, rfl, rfl, rfl, rfl, rfl, rfl, rfl, rfl⟩
    · exact ⟨rfl, rfl, rfl, rfl, rfl, rfl, rfl, rfl, rfl, rfl, rfl, rfl⟩
    · exact ⟨ctrl, rfl, status, last, rfl, rfl, headC, tail, pending, rfl, rfl⟩
    · exact ⟨rfl, rfl, rfl, rfl, rfl, rfl, rfl, rfl, rfl, rfl, rfl, rfl, rfl, spi⟩
  · exact if_pos ((Event.held_producer s he).trans hr)
  · exact if_pos ((Event.held_consumer s he).trans hr)

/-- Settles O7: each invariant has its own lemma about the reset state. -/
theorem resetInvariants : Obligations.ResetInvariants :=
  ⟨rfl, rfl, fun p hp => ⟨State.resetWith_dataInv hp, State.resetWith_controlInv p, State.resetWith_ringInv p⟩⟩

end Sys2Proof.Machine
